-- ==== Sys2Proof/Word.lean ====
section
/-! DEFINITION. The bit-vector types of the block's registers, operands and words (00_scope.md R5, R6).
Bit 0 is the least significant bit of each, and every value is unsigned (R6). -/

namespace Sys2Proof

/-- A byte: a register address (`W_REGADDR`), a wire byte, a PEC (`W_PEC`), 8 bits (R5, R6). -/
abbrev Byte := BitVec 8

/-- A word: the value of a device register (`W_VALUE`), 16 bits (R5, R6). -/
abbrev Word := BitVec 16

/-- A bus device address (`W_DEVADDR`), 7 bits (R5, R10). -/
abbrev DevAddr := BitVec 7

/-- The command word of the host interface, 48 bits (R40). -/
abbrev CommandWord := BitVec 48

/-- The response word of the host interface, 32 bits (R45). -/
abbrev ResponseWord := BitVec 32

end Sys2Proof
end

