-- ==== Sys2Proof/Config.lean ====
section
/-! DEFINITION. What an instance of the block fixes (the parameters of 00_scope.md R5), the vocabulary of the bus
boundary (R8, R29), and the one free value of the model: the answer of the bus oracle (20_memory.md R28). -/

namespace Sys2Proof

/-- `TIME_UNIT`, the unit of the waits: OPEN, milliseconds by general knowledge (R5, D5).
No rule reads it (R81, R109): it labels `tEE` only. -/
inductive TimeUnit where
  | millisecond
  | other (name : Nat)
  deriving DecidableEq, Repr

/-- `SPIKE_FAIL_TEST`: how READ_SPIKE takes a read as failed (R5, R83, D9). -/
inductive SpikeFailTest where
  /-- A read value of 0x0000 counts as a failed read; the default. -/
  | zeroValue
  /-- Only the bus's own failure counts. -/
  | busStatus
  deriving DecidableEq, Repr

/-- The parameters the source leaves open (00_scope.md R5). They are arguments of the model, carried by the state
and never changed by a step; every claim quantifies over them. Sets are lists without repeats. -/
structure Params where
  /-- `T_EE`, the erase/settle wait in time units (R81, D5). -/
  tEE : Nat
  /-- `TIME_UNIT` (D5). -/
  timeUnit : TimeUnit
  /-- `REG_CONFIG`, the config register's address (D6). -/
  regConfig : Byte
  /-- `REG_EMISS`, the emissivity register's address (D6). -/
  regEmiss : Byte
  /-- `RAM_REGS` (R21, D6). -/
  ramRegs : List Byte
  /-- `EEPROM_REGS` (R21, D6). -/
  eepromRegs : List Byte
  /-- `NOISE_VALID`, in masked, unshifted form (R51, D7, D8). -/
  noiseValid : List Word
  /-- `SPIKE_FAIL_TEST` (D9). -/
  spikeFailTest : SpikeFailTest
  deriving DecidableEq, Repr

/-- The defaults of 92_eei_decisions.md D5, D6, D7 and D9 and of 95_test_vectors.md's conventions.
PRESUMED (the spec marks them general knowledge; notes/assumptions/2.md), unsafe as facts: no claim rests on them. -/
def Params.default : Params where
  tEE := 10
  timeUnit := .millisecond
  regConfig := 0x25#8
  regEmiss := 0x24#8
  ramRegs := [0x04#8, 0x05#8, 0x06#8, 0x07#8, 0x08#8]
  eepromRegs := [0x20#8, 0x21#8, 0x22#8, 0x23#8, 0x24#8, 0x25#8, 0x2E#8, 0x3C#8, 0x3D#8, 0x3E#8, 0x3F#8]
  noiseValid := [0x0400#16, 0x0500#16, 0x0600#16, 0x0700#16]
  spikeFailTest := .zeroValue

/-- What a bus primitive asks of the bus collaborator (R8). `writeRead` is the combined transaction, held from its
write phase to its read phase (R15, R26). -/
inductive BusQuery where
  | probe (a7 : DevAddr)
  | write (a7 : DevAddr) (w : List Byte)
  | writeRead (a7 : DevAddr) (w : List Byte) (m : Nat)
  deriving DecidableEq, Repr

/-- An answer of the bus. `ok` is the `present` of a probe and the `ok` of a write or a write-read.
`r0 r1 r2` are the three reply bytes of a write-read: `m` is `READ_REPLY_LEN` = 3 in every one the block issues (R49).
They mean nothing for the other primitives, nor when `ok` is false (R8). -/
structure BusAnswer where
  ok : Bool
  r0 : Byte
  r1 : Byte
  r2 : Byte
  deriving DecidableEq, Repr, Inhabited

/-- One event of the event history (R29 item 3). The reply `r` of a failed write-read is the empty list, since its
bytes carry no meaning (R8, R28; notes/assumptions/6.md). -/
inductive BusEvent where
  | probe (a7 : DevAddr) (present : Bool)
  | write (a7 : DevAddr) (w : List Byte) (ok : Bool)
  | writeRead (a7 : DevAddr) (w : List Byte) (m : Nat) (ok : Bool) (r : List Byte)
  | wait (t : Nat)
  deriving DecidableEq, Repr

/-- FREE VALUE. The answer of the unconstrained bus oracle to a primitive, given the whole event history before it
(R28; notes/assumptions/3.md). It has no body: no proof can know an answer. -/
opaque Config.busOracle : List BusEvent → BusQuery → BusAnswer

end Sys2Proof
end

