-- ==== Sys2Proof/Syntax.lean ====
section
/-! DEFINITION. The commands of the block, one constructor per row of the opcode table (30_encoding.md R42, R43).
Every operand has exactly the width its field has in the command word (R41, R52), so each term is a command the
encoding admits. Operand values that are well encoded but out of range are no encoding errors (R44): they are terms
here, and the meanings give them their outcomes. -/

namespace Sys2Proof

/-- The twelve commands (R42). -/
inductive Instr where
  /-- INIT, R60: bind to the 7-bit device address `R[6:0]`. -/
  | init (a7 : DevAddr)
  /-- CRC_CLEAR, R73. -/
  | crcClear
  /-- CRC_UPDATE, R74: `R` is the data byte. -/
  | crcUpdate (b : Byte)
  /-- CRC_CHECK, R75: `R` is the expected checksum. -/
  | crcCheck (p : Byte)
  /-- READ16, R61: `R` is the register address. -/
  | read16 (ra : Byte)
  /-- WRITE16, R62: `R` is the register address, `B` the value. -/
  | write16 (ra : Byte) (v : Word)
  /-- EEWRITE, R80: `R` is the register address, `B` the value. -/
  | eeWrite (ra : Byte) (v : Word)
  /-- READ_NOISE, R82. -/
  | readNoise
  /-- READ_SPIKE, R83. -/
  | readSpike
  /-- WRITE_NOISE, R85: `B` is the noise mode in masked form. -/
  | writeNoise (m : Word)
  /-- WRITE_SPIKE, R86: `B` is the spike mode. -/
  | writeSpike (m : Word)
  /-- WRITE_FILTER, R87: `A` is the noise mode, `B` the spike mode. -/
  | writeFilter (noise spike : Word)
  deriving DecidableEq, Repr

/-- The mnemonic of the opcode table (R42), letter for letter. -/
def Instr.mnemonic : Instr → String
  | .init _ => "INIT"
  | .crcClear => "CRC_CLEAR"
  | .crcUpdate _ => "CRC_UPDATE"
  | .crcCheck _ => "CRC_CHECK"
  | .read16 _ => "READ16"
  | .write16 _ _ => "WRITE16"
  | .eeWrite _ _ => "EEWRITE"
  | .readNoise => "READ_NOISE"
  | .readSpike => "READ_SPIKE"
  | .writeNoise _ => "WRITE_NOISE"
  | .writeSpike _ => "WRITE_SPIKE"
  | .writeFilter _ _ => "WRITE_FILTER"

/-- The transactor commands, those that read `BOUND` (R11, R92); INIT and the CRC commands are the others. -/
def Instr.isTransactor : Instr → Bool
  | .init _ => false
  | .crcClear => false
  | .crcUpdate _ => false
  | .crcCheck _ => false
  | .read16 _ => true
  | .write16 _ _ => true
  | .eeWrite _ _ => true
  | .readNoise => true
  | .readSpike => true
  | .writeNoise _ => true
  | .writeSpike _ => true
  | .writeFilter _ _ => true

end Sys2Proof
end

