-- ==== Sys2Proof/WellFormed.lean ====
section
/-! DEFINITION. What is well formed: a command word (against the mask and match rows of 30_encoding.md R43, so that
R44's "illegal" is its negation) and an instance's parameters (00_scope.md R5).

A term of `Instr` needs no check of its own: the types of its operands admit exactly the encodings of its row (R41,
R52), which is why no predicate on `Instr` stands here. -/

namespace Sys2Proof

/-- One row of the opcode table: a word `w` encodes the mnemonic exactly when `w & mask = pattern` (R43). -/
structure TableRow where
  mnemonic : String
  pattern : CommandWord
  mask : CommandWord
  deriving DecidableEq, Repr

/-- The rows of R43, as spec/opcode_table.json gives them. -/
def opcodeTable : List TableRow := [
  ⟨"INIT",         0x100000000000#48, 0xFF80FFFFFFFF#48⟩,
  ⟨"CRC_CLEAR",    0x200000000000#48, 0xFFFFFFFFFFFF#48⟩,
  ⟨"CRC_UPDATE",   0x300000000000#48, 0xFF00FFFFFFFF#48⟩,
  ⟨"CRC_CHECK",    0x400000000000#48, 0xFF00FFFFFFFF#48⟩,
  ⟨"READ16",       0x500000000000#48, 0xFF00FFFFFFFF#48⟩,
  ⟨"WRITE16",      0x600000000000#48, 0xFF00FFFF0000#48⟩,
  ⟨"EEWRITE",      0x700000000000#48, 0xFF00FFFF0000#48⟩,
  ⟨"READ_NOISE",   0x800000000000#48, 0xFFFFFFFFFFFF#48⟩,
  ⟨"READ_SPIKE",   0x900000000000#48, 0xFFFFFFFFFFFF#48⟩,
  ⟨"WRITE_NOISE",  0xA00000000000#48, 0xFFFFFFFF0000#48⟩,
  ⟨"WRITE_SPIKE",  0xB00000000000#48, 0xFFFFFFFF0000#48⟩,
  ⟨"WRITE_FILTER", 0xC00000000000#48, 0xFFFF00000000#48⟩]

/-- The word fits the row. -/
def TableRow.fits (r : TableRow) (w : CommandWord) : Bool := w &&& r.mask == r.pattern

/-- A command word is legal when it fits a row; every other word is illegal (R44). -/
def CommandWord.legal (w : CommandWord) : Bool := opcodeTable.any (fun r => r.fits w)

/-- `T_EE >= 10` time units (R5, R81). -/
def Params.waitLongEnough (p : Params) : Bool := decide (10 ≤ p.tEE)

/-- `RAM_REGS` and `EEPROM_REGS` are disjoint (R5). -/
def Params.classesDisjoint (p : Params) : Bool := p.ramRegs.all (fun a => !p.eepromRegs.contains a)

/-- `REG_CONFIG` and `REG_EMISS` are in `EEPROM_REGS` (R5). -/
def Params.namedRegsInEeprom (p : Params) : Bool :=
  p.eepromRegs.contains p.regConfig && p.eepromRegs.contains p.regEmiss

/-- `NOISE_VALID` is a set of exactly 4 values of the form `k << 8`, `k` in 1 to 7 (R5, R51). -/
def Params.noiseSetOk (p : Params) : Bool :=
  decide (p.noiseValid.length = 4) && decide p.noiseValid.Nodup &&
    p.noiseValid.all (fun m => m &&& ~~~0x0700#16 == 0#16 && m != 0#16)

/-- The two register classes are lists without repeats, being sets (R5). -/
def Params.classesAreSets (p : Params) : Bool := decide p.ramRegs.Nodup && decide p.eepromRegs.Nodup

/-- The constraints R5 puts on the parameters of an instance. -/
def Params.wf (p : Params) : Bool :=
  p.waitLongEnough && p.classesDisjoint && p.namedRegsInEeprom && p.noiseSetOk && p.classesAreSets

end Sys2Proof
end

