-- ==== Sys2Proof/Decode.lean ====
section
/-! DEFINITION. The decoder of command words and the encoder (30_encoding.md R40 to R46). A decoder reads exactly 48
bits: first `OP`, then the must-be-zero fields of its row (R46). There are no prefixes, lengths or modes (R40). -/

namespace Sys2Proof

/-- Why a command word is illegal (R44). The block answers every one alike, with ILLEGAL (R93). -/
inductive IllegalWord where
  /-- `OP` is 0x0, 0xD, 0xE or 0xF. -/
  | reservedOp
  /-- `RSV` is nonzero. -/
  | rsvNonzero
  /-- INIT with `R[7] = 1` (R52). -/
  | initBit7
  /-- `R` is nonzero in a command that has no `R` operand. -/
  | rNonzero
  /-- `A` is nonzero in a command that has no `A` operand. -/
  | aNonzero
  /-- `B` is nonzero in a command that has no `B` operand. -/
  | bNonzero
  deriving DecidableEq, Repr

/-- `OP`, bits [47:44] (R40). -/
def fieldOP (w : CommandWord) : BitVec 4 := w.extractLsb' 44 4

/-- `RSV`, bits [43:40] (R40). -/
def fieldRSV (w : CommandWord) : BitVec 4 := w.extractLsb' 40 4

/-- `R`, bits [39:32] (R40). -/
def fieldR (w : CommandWord) : Byte := w.extractLsb' 32 8

/-- `A`, bits [31:16] (R40). -/
def fieldA (w : CommandWord) : Word := w.extractLsb' 16 16

/-- `B`, bits [15:0] (R40). -/
def fieldB (w : CommandWord) : Word := w.extractLsb' 0 16

/-- The command `i`, if the fields its row marks 0 are zero: `useR`, `useA`, `useB` say which fields are operands. -/
def checkZero (useR useA useB : Bool) (w : CommandWord) (i : Instr) : Except IllegalWord Instr :=
  if fieldRSV w ≠ 0#4 then .error .rsvNonzero
  else if !useR && fieldR w != 0#8 then .error .rNonzero
  else if !useA && fieldA w != 0#16 then .error .aNonzero
  else if !useB && fieldB w != 0#16 then .error .bNonzero
  else .ok i

/-- INIT's row: `R[7]` must be 0 as well, and the address is `R[6:0]` (R41, R52). -/
def decodeInit (w : CommandWord) : Except IllegalWord Instr :=
  if (fieldR w).getLsbD 7 then .error .initBit7
  else checkZero true false false w (.init ((fieldR w).setWidth 7))

/-- The decoder, total on the 48-bit words: a command of R42 and R43, or the reason the word is illegal (R44). -/
def decode (w : CommandWord) : Except IllegalWord Instr :=
  match (fieldOP w).toNat with
  | 0x1 => decodeInit w
  | 0x2 => checkZero false false false w .crcClear
  | 0x3 => checkZero true false false w (.crcUpdate (fieldR w))
  | 0x4 => checkZero true false false w (.crcCheck (fieldR w))
  | 0x5 => checkZero true false false w (.read16 (fieldR w))
  | 0x6 => checkZero true false true w (.write16 (fieldR w) (fieldB w))
  | 0x7 => checkZero true false true w (.eeWrite (fieldR w) (fieldB w))
  | 0x8 => checkZero false false false w .readNoise
  | 0x9 => checkZero false false false w .readSpike
  | 0xA => checkZero false false true w (.writeNoise (fieldB w))
  | 0xB => checkZero false false true w (.writeSpike (fieldB w))
  | 0xC => checkZero false true true w (.writeFilter (fieldA w) (fieldB w))
  | _ => .error .reservedOp

/-- A command word from its fields, with `RSV` = 0 (R40). -/
def packWord (op : BitVec 4) (r : Byte) (a b : Word) : CommandWord := op ++ 0#4 ++ r ++ a ++ b

/-- The encoder: the command word of a command, unused fields 0 (R42, R43, R53). -/
def encode : Instr → CommandWord
  | .init a7 => packWord 0x1#4 (a7.setWidth 8) 0#16 0#16
  | .crcClear => packWord 0x2#4 0#8 0#16 0#16
  | .crcUpdate b => packWord 0x3#4 b 0#16 0#16
  | .crcCheck p => packWord 0x4#4 p 0#16 0#16
  | .read16 ra => packWord 0x5#4 ra 0#16 0#16
  | .write16 ra v => packWord 0x6#4 ra 0#16 v
  | .eeWrite ra v => packWord 0x7#4 ra 0#16 v
  | .readNoise => packWord 0x8#4 0#8 0#16 0#16
  | .readSpike => packWord 0x9#4 0#8 0#16 0#16
  | .writeNoise m => packWord 0xA#4 0#8 0#16 m
  | .writeSpike m => packWord 0xB#4 0#8 0#16 m
  | .writeFilter noise spike => packWord 0xC#4 0#8 noise spike

/-- The command word whose low `nbits` bits are those of `w`, every bit above them 0. A command is one 48-bit word,
numbered as R40 numbers it, bit 0 least significant. -/
def tableWord (nbits w : Nat) : CommandWord := BitVec.ofNat 48 (w % 2 ^ nbits)

/-- What the decoder reads from a word of the opcode table; none where the word is illegal. -/
def decodeTableWord (nbits w : Nat) : Option Instr :=
  match decode (tableWord nbits w) with
  | .ok i => some i
  | .error _ => none

end Sys2Proof
end

