-- ==== Sys2Proof/Machine/State.lean ====
section
/-! DEFINITION. The state of the machine: the three registers the spec gives the block (10_state.md R10 to R12, R19),
the two records the spec gives the model (event history and fault mark, R18), the block's two ports (R40, R45), and
what stands outside the block and is fixed or unconstrained: the parameters (R5) and the bus collaborator (R28, R36).
State is plain data. -/

namespace Sys2Proof.Machine

/-- The 16-bit registers of the mock device (R36): pairs of register address and value, addresses strictly rising.
An unlisted address reads as `POISON`, and no entry is `POISON`, so equal contents are equal lists. The unit is the
whole 16-bit register: the space is not byte-addressable (R20, R24). The block itself has no memory (20_memory.md). -/
abbrev Memory := List (Nat × Word)

/-- The mock device of R36, a deterministic bus collaborator for tests; no rule of the block depends on it. -/
structure MockDevice where
  /-- `present`. -/
  present : Bool
  /-- `addr`, the device's own bus address. -/
  addr : DevAddr
  /-- `reg[a]` for every 8-bit `a`. -/
  reg : Memory
  /-- `settling`: the register written last, while its wait has not elapsed. -/
  settling : Option Byte
  /-- `fail_next`: how many coming bus writes and write-reads fail. -/
  failNext : Nat
  deriving DecidableEq, Repr

/-- Who answers the bus primitives. -/
inductive Bus where
  /-- The unconstrained oracle (R28). `script` holds answers given from outside, the next one first; when it is empty
  the answer is the free value `Config.busOracle`. A claim about every state is a claim about every script. -/
  | oracle (script : List BusAnswer)
  /-- The mock device, a refinement of the oracle (R36). -/
  | mock (dev : MockDevice)
  deriving DecidableEq, Repr

/-- The state of the machine. -/
structure State where
  /-- `DEV_ADDR`, R10: the bus address of the one device the block talks to. -/
  devAddr : DevAddr
  /-- `BOUND`, R11: the last INIT found the device present. -/
  bound : Bool
  /-- `CRC_ACC`, R12: the running accumulator of the CRC-8 generator. -/
  crcAcc : Byte
  /-- The event history, R18 and R29: every bus primitive and wait issued, with its answer, oldest first. -/
  history : List BusEvent
  /-- The fault mark, R18 and R97: a NOT_BOUND or ILLEGAL outcome has occurred. -/
  faultMark : Bool
  /-- The response words given to the host so far, oldest first (R45, R109). -/
  responses : List ResponseWord
  /-- The command port: the command words the host is still to issue, the next one first (R13, R40, R29 item 1). -/
  port : List CommandWord
  /-- The instance's parameters (R5, R18): read, never written. -/
  params : Params
  /-- The bus collaborator and the device behind it (R28, R36): outside the block. -/
  bus : Bus
  deriving DecidableEq, Repr

/-- A fault that stops the machine. There is none: the block gives every command, legal or not, one response and then
accepts the next (R45, R97). The spec's NOT_BOUND and ILLEGAL faults are next states, with the response given and the
fault mark set; no step raises a constructor of this type, and that is safe. -/
inductive Fault where
  deriving DecidableEq, Repr

/-- A refusal: no meaning for the instruction. -/
inductive Refusal where
  /-- Raised by `exec` for an instruction without a meaning; safe. No arm of this model raises it. -/
  | notModelled (mnemonic : String)
  deriving DecidableEq, Repr

/-- The outcome of a step of this machine. -/
abbrev Result := Host.Outcome State Fault Refusal

/-- The state right after a reset (R100, R19) of an instance with parameters `p`, with the bus collaborator `bus`, a
host that will issue `port`, and `DEV_ADDR` holding `a7`: its value is unspecified, "any 7-bit value" (R100). -/
def State.resetOf (p : Params) (a7 : DevAddr) (bus : Bus) (port : List CommandWord) : State where
  devAddr := a7
  bound := false
  crcAcc := 0x00#8
  history := []
  faultMark := false
  responses := []
  port := port
  params := p
  bus := bus

/-- The machine right after reset (R100): default parameters (PRESUMED, notes/assumptions/2.md), `DEV_ADDR` 0x00
(DESIGN CHOICE, notes/assumptions/1.md), no scripted bus answer, no command waiting. -/
def State.reset : State := State.resetOf Params.default 0x00#7 (.oracle []) []

end Sys2Proof.Machine
end

