-- ==== Sys2Proof/Machine/Flags.lean ====
section
/-! DEFINITION. Outcomes: the status codes (60_exceptions.md R90) and the response word (30_encoding.md R45). The block
has no persistent flags; the status of a response plays a condition code's part for that command only (R14). -/

namespace Sys2Proof.Machine

/-- The outcomes of a command (R90). -/
inductive Status where
  | ok
  | busFail
  | ignored
  | skipped
  | noDevice
  | notBound
  | illegal
  deriving DecidableEq, Repr

/-- The code in the response word (R90). -/
def Status.code : Status → BitVec 4
  | .ok => 0x0#4
  | .busFail => 0x1#4
  | .ignored => 0x2#4
  | .skipped => 0x3#4
  | .noDevice => 0x4#4
  | .notBound => 0x5#4
  | .illegal => 0x6#4

/-- The response word: `STATUS`, four zero bits, `AUX`, `DATA` (R45). -/
def responseWord (st : Status) (aux : Byte) (data : Word) : ResponseWord := st.code ++ 0#4 ++ aux ++ data

/-- `STATUS`, bits [31:28] (R45). -/
def responseStatus (r : ResponseWord) : BitVec 4 := r.extractLsb' 28 4

/-- `RSV`, bits [27:24] (R45). -/
def responseRsv (r : ResponseWord) : BitVec 4 := r.extractLsb' 24 4

/-- `AUX`, bits [23:16] (R45). -/
def responseAux (r : ResponseWord) : Byte := r.extractLsb' 16 8

/-- `DATA`, bits [15:0] (R45). -/
def responseData (r : ResponseWord) : Word := r.extractLsb' 0 16

/-- The response is a fault: NOT_BOUND or ILLEGAL (R90, R97). -/
def isFaultResponse (r : ResponseWord) : Bool := responseStatus r == 0x5#4 || responseStatus r == 0x6#4

/-- OK when every bus primitive answered success, else BUS_FAIL (R90). -/
def busStatus : Bool → Status
  | true => .ok
  | false => .busFail

/-- The status of a setter whose config read gave 0x0000: SKIPPED when the bus succeeded, else BUS_FAIL (R85). -/
def zeroReadStatus : Bool → Status
  | true => .skipped
  | false => .busFail

end Sys2Proof.Machine
end

