-- ==== Sys2Proof/Machine/Operands.lean ====
section
/-! DEFINITION. Operand forms: byte order, the CRC-8 generator, write frames and payloads, register classes and the
filter fields of the config register. -/

namespace Sys2Proof.Machine

/-! ## Bytes and words (R9, R22, R50) -/

/-- `lo(v) = v[7:0]`, sent first (R9, R50). -/
def lo (v : Word) : Byte := v.extractLsb' 0 8

/-- `hi(v) = v[15:8]`, sent second (R9, R50). -/
def hi (v : Word) : Byte := v.extractLsb' 8 8

/-- `zext_16(r0) | (zext_16(r1) << 8)`: the value of the reply bytes, little-endian (R22, R50). -/
def assemble (r0 r1 : Byte) : Word := r0.setWidth 16 ||| (r1.setWidth 16 <<< 8)

/-! ## The CRC-8 generator (R70 to R72) -/

/-- `PEC_POLY` (R5). -/
def pecPoly : Byte := 0x07#8

/-- `PEC_INIT` (R5). -/
def pecInit : Byte := 0x00#8

/-- `n` iterations of the bit loop of R70, from accumulator `acc` and input byte `b`. -/
def crcBits : Nat → Byte → Byte → Byte
  | 0, acc, _ => acc
  | n + 1, acc, b =>
    crcBits n (if (acc ^^^ b).getLsbD 7 then (acc <<< 1) ^^^ pecPoly else acc <<< 1) (b <<< 1)

/-- `crc_byte(acc, b)`, R70: most significant bit first, not reflected. -/
def crcByte (acc b : Byte) : Byte := crcBits 8 acc b

/-- `crc8(s)`, R72: first byte first, no final exclusive or. -/
def crc8 (s : List Byte) : Byte := s.foldl crcByte pecInit

/-- `step(c)` of R71. -/
def crcStep (c : Byte) : Byte := (c <<< 1) ^^^ (if c.getLsbD 7 then 0x07#8 else 0x00#8)

/-! ## Frames (R47 to R49) -/

/-- `zext_8(DEV_ADDR) << 1`: the address-plus-write-bit byte, which enters the PEC and is not sent (R47). -/
def addressByte (a7 : DevAddr) : Byte := a7.setWidth 8 <<< 1

/-- The PEC frame of a write of `v` to `ra` at device `a7` (R47). -/
def writeFrame (a7 : DevAddr) (ra : Byte) (v : Word) : List Byte := [addressByte a7, ra, lo v, hi v]

/-- The write payload: register address, value low byte first, PEC (R48). -/
def writePayload (a7 : DevAddr) (ra : Byte) (v : Word) : List Byte :=
  [ra, lo v, hi v, crc8 (writeFrame a7 ra v)]

/-- `READ_REPLY_LEN` (R5, R49). -/
def readReplyLen : Nat := 3

/-! ## Read answers (R61, R82, R83) -/

/-- `READ_FAIL_VALUE` and `NOISE_READ_FAIL` (R5). -/
def readFailValue : Word := 0x0000#16

/-- `SPIKE_READ_FAIL` (R5). -/
def spikeReadFail : Word := 0x1000#16

/-- The value of a read: the reply's, or the sentinel 0 when the bus failed (R61, R83, R85). -/
def readValue (a : BusAnswer) : Word := if a.ok then assemble a.r0 a.r1 else readFailValue

/-- The PEC byte a read reports: the third reply byte, unchecked, or 0x00 when the bus failed (R45, R61). -/
def readPec (a : BusAnswer) : Byte := if a.ok then a.r2 else 0x00#8

/-! ## Register classes (R21, R93) -/

/-- `ra` is in `EEPROM_REGS`: a write may name it. -/
def isEeprom (p : Params) (ra : Byte) : Bool := p.eepromRegs.contains ra

/-! ## The filter fields of the config register (R16, R51, R84) -/

/-- `NOISE_FIELD_MASK`: bits [10:8] (R5). -/
def noiseMask : Word := 0x0700#16

/-- `SPIKE_FIELD_MASK`: bits [2:0] (R5). -/
def spikeMask : Word := 0x0007#16

/-- Both filter fields (R87). -/
def filterMask : Word := 0x0707#16

/-- `DUAL_IIR_BIT`: config bit 6 (R5, R16); no command of the block reads it, and the setters preserve it (R88). -/
def dualIir (v : Word) : Bool := v.getLsbD 6

/-- The FIR/noise field of a config value, masked and unshifted (R16, R82). -/
def noiseField (v : Word) : Word := v &&& noiseMask

/-- The IIR/spike field of a config value (R16, R83). -/
def spikeField (v : Word) : Word := v &&& spikeMask

/-- `m` is in `NOISE_VALID` (R84). -/
def noiseModeValid (p : Params) (m : Word) : Bool := p.noiseValid.contains m

/-- `m` is in `SPIKE_VALID = {0x0000, ..., 0x0007}` (R51, R84). -/
def spikeModeValid (m : Word) : Bool := decide (m.toNat ≤ 7)

/-- The field under `mask` replaced by `request`, every other bit kept (R85 to R88). -/
def mergeField (mask request v : Word) : Word := (v &&& ~~~mask) ||| request

/-- READ_SPIKE takes the read as failed (R83): by the value 0 or by the bus's answer, as `SPIKE_FAIL_TEST` says. -/
def spikeReadFailed (p : Params) (a : BusAnswer) : Bool :=
  match p.spikeFailTest with
  | .zeroValue => readValue a == 0x0000#16
  | .busStatus => !a.ok

end Sys2Proof.Machine
end

