-- ==== Sys2Proof/Machine/Mock.lean ====
section
/-! DEFINITION. The mock device (20_memory.md R36): the deterministic bus collaborator of 95_test_vectors.md, with its
register space. No rule of the block depends on it and no claim rests on it (D26). -/

namespace Sys2Proof.Machine

/-- Addresses strictly rising from `from_`, each an 8-bit address. -/
def Memory.wfFrom : Nat → Memory → Bool
  | _, [] => true
  | from_, (a, _) :: rest => decide (from_ ≤ a) && decide (a < 256) && Memory.wfFrom (a + 1) rest

/-- The canonical form: 8-bit addresses, strictly rising. -/
def Memory.wf (m : Memory) : Bool := Memory.wfFrom 0 m

/-- The register at `a`; none is `POISON`. -/
def Memory.read : Memory → Nat → Option Word
  | [], _ => none
  | (b, w) :: rest, a => if a = b then some w else Memory.read rest a

/-- `reg[a] <- v`. -/
def Memory.write : Memory → Nat → Word → Memory
  | [], a, v => [(a, v)]
  | (b, w) :: rest, a, v =>
    if a < b then (a, v) :: (b, w) :: rest
    else if a = b then (a, v) :: rest
    else (b, w) :: Memory.write rest a v

/-- `reg[a] <- POISON`: the entry is removed. -/
def Memory.poison : Memory → Nat → Memory
  | [], _ => []
  | (b, w) :: rest, a => if a = b then rest else (b, w) :: Memory.poison rest a

/-- `BusProbe`, `BusWrite` and `BusWriteRead` reach this device: it is present and `a7` is its address (R36). -/
def MockDevice.reached (d : MockDevice) (a7 : DevAddr) : Bool := d.present && a7 == d.addr

/-- If some register is settling, it becomes `POISON` and nothing is settling any more (R36). -/
def MockDevice.disturb (d : MockDevice) : MockDevice :=
  match d.settling with
  | none => d
  | some x => { d with reg := d.reg.poison x.toNat, settling := none }

/-- The effect of an accepted write of `v` on an EEPROM register (R36; R27 item 1): an erase, a write onto an erased
register, or a register left undefined. -/
def MockDevice.program (d : MockDevice) (ra : Byte) (v : Word) : MockDevice :=
  if v = 0x0000#16 then { d with reg := d.reg.write ra.toNat 0x0000#16 }
  else if d.reg.read ra.toNat = some 0x0000#16 then { d with reg := d.reg.write ra.toNat v }
  else { d with reg := d.reg.poison ra.toNat }

/-- An accepted write of `v` to `ra` (R36): a settling register is disturbed first, only EEPROM registers change, and
`ra` is settling afterwards. The PEC is not checked. -/
def MockDevice.acceptWrite (p : Params) (d : MockDevice) (ra : Byte) (v : Word) : MockDevice :=
  let d := d.disturb
  let d := if isEeprom p ra then d.program ra v else d
  { d with settling := some ra }

/-- The PEC of the mock's reply: the SMBus read-word frame (R36, general knowledge G6). -/
def mockReadPec (a7 : DevAddr) (ra : Byte) (v : Word) : Byte :=
  crc8 [addressByte a7, ra, addressByte a7 ||| 0x01#8, lo v, hi v]

/-- An answer without reply bytes. -/
def plainAnswer (ok : Bool) : BusAnswer := ⟨ok, 0x00#8, 0x00#8, 0x00#8⟩

/-- The mock's answer to a primitive, none for the marker `UNDEF` ("the rules give no value"), and the mock after it
(R36). A payload of a shape no command issues has no rule: `UNDEF`. -/
def MockDevice.respond (p : Params) (d : MockDevice) : BusQuery → Option BusAnswer × MockDevice
  | .probe a7 => (some (plainAnswer (d.reached a7)), d)
  | .write a7 w =>
    if d.failNext > 0 then (some (plainAnswer false), { d with failNext := d.failNext - 1 })
    else if !d.reached a7 then (some (plainAnswer false), d)
    else match w with
      | [ra, l, h, _] => (some (plainAnswer true), d.acceptWrite p ra (assemble l h))
      | _ => (none, d)
  | .writeRead a7 w _ =>
    if d.failNext > 0 then (some (plainAnswer false), { d with failNext := d.failNext - 1 })
    else if !d.reached a7 then (some (plainAnswer false), d)
    else if d.settling.isSome then (some (plainAnswer false), d.disturb)
    else match w with
      | [ra] =>
        match d.reg.read ra.toNat with
        | none => (none, d)
        | some v => (some ⟨true, lo v, hi v, mockReadPec a7 ra v⟩, d)
      | _ => (none, d)

/-- `Wait(t)` with `t >= T_EE`: nothing is settling any more (R36). -/
def MockDevice.wait (p : Params) (d : MockDevice) (t : Nat) : MockDevice :=
  if p.tEE ≤ t then { d with settling := none } else d

end Sys2Proof.Machine
end

