-- ==== Sys2Proof/Machine/Ops.lean ====
section
/-! DEFINITION. The shared operations: the bus primitives (00_scope.md R8), the register accesses (R7), the response
(R45), taking a fault (R97), the erase-before-write sequence (R80) and the read-modify-write of a config field (R85 to
R87). -/

namespace Sys2Proof.Machine

/-! ## The bus (R8, R28, R29) -/

/-- The event a primitive and its answer leave in the history (R29 item 3). -/
def busEvent : BusQuery → BusAnswer → BusEvent
  | .probe a7, a => .probe a7 a.ok
  | .write a7 w, a => .write a7 w a.ok
  | .writeRead a7 w m, a => .writeRead a7 w m a.ok (if a.ok then [a.r0, a.r1, a.r2] else [])

/-- The bus collaborator's answer to `q` after the history `h` (R28, R36). The mock's `UNDEF` is the free value. -/
def Bus.answer (p : Params) (h : List BusEvent) (q : BusQuery) : Bus → BusAnswer
  | .oracle [] => Config.busOracle h q
  | .oracle (a :: _) => a
  | .mock d => ((d.respond p q).1).getD (Config.busOracle h q)

/-- The bus collaborator after answering `q`. -/
def Bus.advance (p : Params) (q : BusQuery) : Bus → Bus
  | .oracle script => .oracle script.tail
  | .mock d => .mock (d.respond p q).2

/-- The bus collaborator after a wait of `t`. -/
def Bus.wait (p : Params) (t : Nat) : Bus → Bus
  | .oracle script => .oracle script
  | .mock d => .mock (d.wait p t)

/-- The answer a primitive gets in this state. -/
def State.answer (s : State) (q : BusQuery) : BusAnswer := s.bus.answer s.params s.history q

/-- The state after a primitive: exactly one event is appended (R29 item 3), and the collaborator has moved on. -/
def State.issue (s : State) (q : BusQuery) : State :=
  { s with history := s.history ++ [busEvent q (s.answer q)], bus := s.bus.advance s.params q }

/-- `BusProbe(DEV_ADDR)` (R8). -/
def busProbe (s : State) : Bool × State :=
  ((s.answer (.probe s.devAddr)).ok, s.issue (.probe s.devAddr))

/-- `BusWrite(DEV_ADDR, [ra, lo, hi, pec])`, the bus action of WRITE16 (R8, R48, R62). `CRC_ACC` is neither read nor
written (R77). -/
def busWrite16 (ra : Byte) (v : Word) (s : State) : Bool × State :=
  let q := .write s.devAddr (writePayload s.devAddr ra v)
  ((s.answer q).ok, s.issue q)

/-- `BusWriteRead(DEV_ADDR, [ra], 3)` (R8, R49). -/
def busRead16 (ra : Byte) (s : State) : BusAnswer × State :=
  let q := .writeRead s.devAddr [ra] readReplyLen
  (s.answer q, s.issue q)

/-- `Wait(T_EE)`, the settling delay: an ordering point in the history; no register changes (R81). -/
def waitSettle (s : State) : State :=
  { s with history := s.history ++ [.wait s.params.tEE], bus := s.bus.wait s.params s.params.tEE }

/-! ## Registers (R7, R10 to R12) -/

/-- `DEV_ADDR <- a7`. -/
def State.setDevAddr (s : State) (a7 : DevAddr) : State := { s with devAddr := a7 }

/-- `BOUND <- b`. -/
def State.setBound (s : State) (b : Bool) : State := { s with bound := b }

/-- `CRC_ACC <- c`. -/
def State.setCrcAcc (s : State) (c : Byte) : State := { s with crcAcc := c }

/-! ## Responses and faults (R45, R92, R93, R97) -/

/-- `respond(status, aux, data)`: the one response word of the command (R7, R45). -/
def respond (st : Status) (aux : Byte) (data : Word) (s : State) : State :=
  { s with responses := s.responses ++ [responseWord st aux data] }

/-- TAKING A FAULT (R97): the command ends with `(status, 0x00, 0x0000)`, no register changes, no bus event is issued,
and the fault mark is set. Nothing is saved and control goes nowhere else: the next command is accepted as ever. There
is no return from a fault, so no operation stands beside this one. -/
def takeFault (st : Status) (s : State) : State :=
  { respond st 0x00#8 0x0000#16 s with faultMark := true }

/-- An illegal command word (R44, R93 (a)). -/
def illegalWord (s : State) : Result := .next (takeFault .illegal s)

/-- The check of `BOUND` that every transactor command makes before its pseudocode (R92, R96 item 3). -/
def whenBound (body : State → State) (s : State) : State :=
  if s.bound then body s else takeFault .notBound s

/-- The check of a write's target, made before that of `BOUND` (R93 (b), R96 item 2). -/
def whenEeprom (ra : Byte) (body : State → State) (s : State) : State :=
  if isEeprom s.params ra then body s else takeFault .illegal s

/-! ## The EEPROM-safe write policy (R80, R84 to R88) -/

/-- `ee_sequence(ra, v)`, R80: erase, wait, write, wait; all four steps run whatever the bus answers, and the result
is whether both writes succeeded. -/
def eeSequence (ra : Byte) (v : Word) (s : State) : Bool × State :=
  let erase := busWrite16 ra 0x0000#16 s
  let write := busWrite16 ra v (waitSettle erase.2)
  (erase.1 && write.1, waitSettle write.2)

/-- EEWRITE's pseudocode after its checks (R80). -/
def eeWriteBody (ra : Byte) (v : Word) (s : State) : State :=
  let r := eeSequence ra v s
  respond (busStatus r.1) 0x00#8 0x0000#16 r.2

/-- The setters' read-modify-write of the config field under `mask`, after validation (R85 to R87): skip when the read
gave 0x0000 or the field already holds the request, else one `ee_sequence` of the merged value. -/
def updateField (mask request : Word) (s : State) : State :=
  let read := busRead16 s.params.regConfig s
  let v := readValue read.1
  if v = 0x0000#16 then
    respond (zeroReadStatus read.1.ok) 0x00#8 0x0000#16 read.2
  else if v &&& mask = request then
    respond .skipped 0x00#8 0x0000#16 read.2
  else
    eeWriteBody s.params.regConfig (mergeField mask request v) read.2

/-- Validation of a filter-mode request: an invalid one is IGNORED, with no bus event (R84, R94, R96 item 4). -/
def whenValid (valid : Bool) (body : State → State) (s : State) : State :=
  if valid then body s else respond .ignored 0x00#8 0x0000#16 s

/-! ## The command port (R13, R29 item 1, R40) -/

/-- The next command word the host issues, taken from the port; none when the host has issued none. -/
def fetch (s : State) : Option (CommandWord × State) :=
  match s.port with
  | [] => none
  | w :: rest => some (w, { s with port := rest })

/-- No command at the port: the block does nothing on its own initiative (R29 item 4). -/
def idle (s : State) : Result := .next s

end Sys2Proof.Machine
end

