-- ==== Sys2Proof/Machine/Crc.lean ====
section
/-! DEFINITION. The commands of the CRC-8 generator (41_crc.md R73 to R75). None needs a binding (D24) or issues a bus
event. -/

namespace Sys2Proof.Machine

/-- CRC_CLEAR, R73. -/
def execCrcClear (s : State) : Result := .next (respond .ok pecInit 0x0000#16 (s.setCrcAcc pecInit))

/-- CRC_UPDATE, R74. -/
def execCrcUpdate (b : Byte) (s : State) : Result :=
  let c := crcByte s.crcAcc b
  .next (respond .ok c 0x0000#16 (s.setCrcAcc c))

/-- CRC_CHECK, R75: a mismatch is no error; the comparison is `DATA`. -/
def execCrcCheck (p : Byte) (s : State) : Result :=
  .next (respond .ok s.crcAcc (if s.crcAcc = p then 0x0001#16 else 0x0000#16) s)

end Sys2Proof.Machine
end

