-- ==== Sys2Proof/Machine/Policy.lean ====
section
/-! DEFINITION. The EEPROM-safe write and the filter-field commands (42_eeprom_policy.md R80 to R89). -/

namespace Sys2Proof.Machine

/-- EEWRITE, R80: the erase-before-write sequence, for every value; it never skips (R89). -/
def execEeWrite (ra : Byte) (v : Word) (s : State) : Result :=
  .next (whenEeprom ra (whenBound (eeWriteBody ra v)) s)

/-- READ_NOISE's pseudocode (R82): the masked, unshifted field, not validated. The failure sentinel `NOISE_READ_FAIL`
is 0x0000, the masked read sentinel. -/
def readNoiseBody (s : State) : State :=
  let read := busRead16 s.params.regConfig s
  respond (busStatus read.1.ok) (readPec read.1) (noiseField (readValue read.1)) read.2

/-- READ_NOISE, R82. -/
def execReadNoise (s : State) : Result := .next (whenBound readNoiseBody s)

/-- READ_SPIKE's pseudocode (R83). -/
def readSpikeBody (s : State) : State :=
  let read := busRead16 s.params.regConfig s
  respond (busStatus read.1.ok) (readPec read.1)
    (if spikeReadFailed s.params read.1 then spikeReadFail else spikeField (readValue read.1)) read.2

/-- READ_SPIKE, R83. -/
def execReadSpike (s : State) : Result := .next (whenBound readSpikeBody s)

/-- WRITE_NOISE, R85. -/
def execWriteNoise (m : Word) (s : State) : Result :=
  .next (whenBound (whenValid (noiseModeValid s.params m) (updateField noiseMask m)) s)

/-- WRITE_SPIKE, R86. -/
def execWriteSpike (m : Word) (s : State) : Result :=
  .next (whenBound (whenValid (spikeModeValid m) (updateField spikeMask m)) s)

/-- WRITE_FILTER, R87: both modes are validated before anything. -/
def execWriteFilter (noise spike : Word) (s : State) : Result :=
  .next (whenBound (whenValid (noiseModeValid s.params noise && spikeModeValid spike)
    (updateField filterMask (noise ||| spike))) s)

end Sys2Proof.Machine
end

