-- ==== Sys2Proof/Machine/Transport.lean ====
section
/-! DEFINITION. The transport commands INIT, READ16 and WRITE16 (40_transport.md R60 to R62). -/

namespace Sys2Proof.Machine

/-- INIT's response (R60): the source's boolean in `DATA`. -/
def initAnswer : Bool → State → State
  | true => respond .ok 0x00#8 0x0001#16
  | false => respond .noDevice 0x00#8 0x0000#16

/-- INIT, R60: `DEV_ADDR` is written whatever the probe answers, then `BOUND` from the probe. -/
def execInit (a7 : DevAddr) (s : State) : Result :=
  let probe := busProbe (s.setDevAddr a7)
  .next (initAnswer probe.1 (probe.2.setBound probe.1))

/-- READ16's pseudocode (R61): the PEC byte is reported and not checked. -/
def read16Body (ra : Byte) (s : State) : State :=
  let read := busRead16 ra s
  respond (busStatus read.1.ok) (readPec read.1) (readValue read.1) read.2

/-- READ16, R61. -/
def execRead16 (ra : Byte) (s : State) : Result := .next (whenBound (read16Body ra) s)

/-- WRITE16's pseudocode (R62): no erase, no wait, no retry. -/
def write16Body (ra : Byte) (v : Word) (s : State) : State :=
  let write := busWrite16 ra v s
  respond (busStatus write.1) 0x00#8 0x0000#16 write.2

/-- WRITE16, R62. -/
def execWrite16 (ra : Byte) (v : Word) (s : State) : Result :=
  .next (whenEeprom ra (whenBound (write16Body ra v)) s)

end Sys2Proof.Machine
end

