-- ==== Sys2Proof/Machine/Dispatch.lean ====
section
/-! DEFINITION. The dispatch: one arm per command (30_encoding.md R42). -/

namespace Sys2Proof.Machine

def exec (i : Instr) (s : State) : Host.Outcome State Fault Refusal :=
  match i with
  | .init a7 => Sys2Proof.Machine.execInit a7 s
  | .crcClear => Sys2Proof.Machine.execCrcClear s
  | .crcUpdate b => Sys2Proof.Machine.execCrcUpdate b s
  | .crcCheck p => Sys2Proof.Machine.execCrcCheck p s
  | .read16 ra => Sys2Proof.Machine.execRead16 ra s
  | .write16 ra v => Sys2Proof.Machine.execWrite16 ra v s
  | .eeWrite ra v => Sys2Proof.Machine.execEeWrite ra v s
  | .readNoise => Sys2Proof.Machine.execReadNoise s
  | .readSpike => Sys2Proof.Machine.execReadSpike s
  | .writeNoise m => Sys2Proof.Machine.execWriteNoise m s
  | .writeSpike m => Sys2Proof.Machine.execWriteSpike m s
  | .writeFilter noise spike => Sys2Proof.Machine.execWriteFilter noise spike s

end Sys2Proof.Machine
end

