-- ==== Sys2Proof/Machine/Step.lean ====
section
/-! DEFINITION. One step: the block accepts the host's next command word and runs it to completion (20_memory.md R29
items 1 and 2). -/

namespace Sys2Proof.Machine

/-- One step. A word that is no command is answered with ILLEGAL before anything else (R96 item 1). -/
def step (s : State) : Host.Outcome State Fault Refusal :=
  match fetch s with
  | none => idle s
  | some (w, s') =>
    match decode w with
    | .ok i => exec i s'
    | .error _ => illegalWord s'

/-- `s` with the command word as the next one the host issues (R40): it stands first at the port. -/
def State.withFetchWord (s : State) (nbits w : Nat) : State :=
  { s with port := tableWord nbits w :: s.port }

end Sys2Proof.Machine
end

