-- ==== Sys2Proof/Machine/Assembler.lean ====
section
/-! DEFINITION. The assembler syntax (30_encoding.md R53) and the pseudo-instructions, the source's public operations
in scope with their expansion into commands (R54). They belong to the host's side: no step of the block calls them. -/

namespace Sys2Proof.Machine

/-! ## Assembler (R53) -/

/-- White space between the parts of a line. DESIGN CHOICE: blank and tab (notes/assumptions/11.md). -/
def isBlank (c : Char) : Bool := c == ' ' || c == '\t'

/-- The text without white space at its ends. -/
def trimBlanks (cs : List Char) : List Char :=
  ((cs.dropWhile isBlank).reverse.dropWhile isBlank).reverse

/-- The parts between commas. -/
def splitCommas : List Char → List (List Char)
  | [] => [[]]
  | c :: cs =>
    if c == ',' then [] :: splitCommas cs
    else match splitCommas cs with
      | [] => [[c]]
      | part :: parts => (c :: part) :: parts

/-- The digits of R53's numbers, each at the index that is its value; a decimal number uses the first ten. -/
def digits : List Char := "0123456789ABCDEF".toList

/-- The value of the digit `c` in `base`; a letter counts in either case. -/
def digitValue (base : Nat) (c : Char) : Option Nat :=
  (digits.take base).findIdx? fun d => d == c || d.toLower == c

/-- The value of a digit string in `base`, most significant digit first. -/
def readDigits (base : Nat) (cs : List Char) : Option Nat :=
  cs.foldlM (fun value c => (digitValue base c).map (base * value + ·)) 0

/-- A number: "hexadecimal with `0x` or decimal" (R53). -/
def readNumber : List Char → Option Nat
  | [] => none
  | '0' :: 'x' :: c :: cs => readDigits 16 (c :: cs)
  | c :: cs => readDigits 10 (c :: cs)

/-- An operand of `n` bits; a number too large for its field is no operand. -/
def readField (n : Nat) (cs : List Char) : Option (BitVec n) :=
  match readNumber cs with
  | none => none
  | some v => if v < 2 ^ n then some (BitVec.ofNat n v) else none

/-- A register operand: a number, or the symbolic name `CONFIG` or `EMISS` (R53). -/
def readRegister (p : Params) (cs : List Char) : Option Byte :=
  if cs = ['C', 'O', 'N', 'F', 'I', 'G'] then some p.regConfig
  else if cs = ['E', 'M', 'I', 'S', 'S'] then some p.regEmiss
  else readField 8 cs

/-- A command from its mnemonic and its operand texts (R53). -/
def assembleParts (p : Params) (mnemonic : List Char) : List (List Char) → Option Instr
  | [] =>
    if mnemonic = "CRC_CLEAR".toList then some .crcClear
    else if mnemonic = "READ_NOISE".toList then some .readNoise
    else if mnemonic = "READ_SPIKE".toList then some .readSpike
    else none
  | [x] =>
    if mnemonic = "INIT".toList then (readField 7 x).map .init
    else if mnemonic = "CRC_UPDATE".toList then (readField 8 x).map .crcUpdate
    else if mnemonic = "CRC_CHECK".toList then (readField 8 x).map .crcCheck
    else if mnemonic = "READ16".toList then (readRegister p x).map .read16
    else if mnemonic = "WRITE_NOISE".toList then (readField 16 x).map .writeNoise
    else if mnemonic = "WRITE_SPIKE".toList then (readField 16 x).map .writeSpike
    else none
  | [x, y] =>
    if mnemonic = "WRITE16".toList then
      (readRegister p x).bind fun ra => (readField 16 y).map (.write16 ra)
    else if mnemonic = "EEWRITE".toList then
      (readRegister p x).bind fun ra => (readField 16 y).map (.eeWrite ra)
    else if mnemonic = "WRITE_FILTER".toList then
      (readField 16 x).bind fun noise => (readField 16 y).map (.writeFilter noise)
    else none
  | _ => none

/-- One line of assembler: the mnemonic, then its operands separated by commas (R53). -/
def assembleLine (p : Params) (line : List Char) : Option Instr :=
  let line := trimBlanks line
  let mnemonic := line.takeWhile (fun c => !isBlank c)
  let rest := trimBlanks (line.dropWhile (fun c => !isBlank c))
  assembleParts p mnemonic (if rest.isEmpty then [] else (splitCommas rest).map trimBlanks)

/-- The command word of a line of assembler. -/
def assembleWord (p : Params) (line : List Char) : Option CommandWord := (assembleLine p line).map encode

/-! ## Pseudo-instructions (R54) -/

/-- The source's public operations that are in scope (R54). -/
inductive SourceOp where
  | initialize_ (address : DevAddr)
  | readConfigRegister
  | writeConfigRegister (v : Word)
  | readEmissivityRegisterRaw
  | writeEmissivityRegisterRaw (v : Word)
  | readNoiseFilterMode
  | writeNoiseFilterMode (m : Word)
  | readSpikeFilterMode
  | writeSpikeFilterMode (m : Word)
  | writeFilterMode (noise spike : Word)
  /-- CRC8 of a byte sequence. -/
  | crc8Of (bytes : List Byte)
  /-- Compare a received PEC with a frame. -/
  | comparePec (pec : Byte) (frame : List Byte)
  deriving DecidableEq, Repr

/-- The commands an operation expands into (R54). -/
def SourceOp.expand (p : Params) : SourceOp → List Instr
  | .initialize_ a => [.init a]
  | .readConfigRegister => [.read16 p.regConfig]
  | .writeConfigRegister v => [.eeWrite p.regConfig v]
  | .readEmissivityRegisterRaw => [.read16 p.regEmiss]
  | .writeEmissivityRegisterRaw v => [.eeWrite p.regEmiss v]
  | .readNoiseFilterMode => [.readNoise]
  | .writeNoiseFilterMode m => [.writeNoise m]
  | .readSpikeFilterMode => [.readSpike]
  | .writeSpikeFilterMode m => [.writeSpike m]
  | .writeFilterMode noise spike => [.writeFilter noise spike]
  | .crc8Of bytes => .crcClear :: bytes.map .crcUpdate
  | .comparePec pec frame => .crcClear :: (frame.map .crcUpdate ++ [.crcCheck pec])

end Sys2Proof.Machine
end

