-- ==== Sys2Proof/Safety.lean ====
section
/-! DEFINITION. The terms claims are made in: what a safe run is, the invariants of the machine, the shapes of a
command's bus traffic, and the effect of the erase-before-write sequence written out. -/

namespace Sys2Proof

open Sys2Proof.Machine

/-- No NOT_BOUND or ILLEGAL outcome so far: the premise R97 asks of a claim about a run. -/
def Machine.State.Safe (s : State) : Prop := s.faultMark = false

/-! ## Invariants -/

/-- The binding a history of bus events leaves: the address of the last probe if it found a device, else none. -/
def boundTo (h : List BusEvent) : Option DevAddr :=
  h.foldl (fun b e => match e with
    | .probe a7 present => if present then some a7 else none
    | .write _ _ _ => b
    | .writeRead _ _ _ _ _ => b
    | .wait _ => b) none

/-- Every write and write-read went to the address that the last probe before it found present (R10, R20, R92). -/
def AddressedByBinding (h : List BusEvent) : Prop :=
  ∀ before e after, h = before ++ e :: after →
    match e with
    | .probe _ _ => True
    | .write a7 _ _ => boundTo before = some a7
    | .writeRead a7 _ _ _ _ => boundTo before = some a7
    | .wait _ => True

/-- `DEV_ADDR` and `BOUND` agree with the history, and no transaction ever went elsewhere. -/
def BindingInv (s : State) : Prop :=
  boundTo s.history = (if s.bound then some s.devAddr else none) ∧ AddressedByBinding s.history

/-- An event as the wire frames allow it: a write carries register address, value and the PEC of its frame, to an
EEPROM register (R21, R47, R48); a write-read carries one register address and asks for three reply bytes (R49), none of
which is recorded when it fails (DESIGN CHOICE, notes/assumptions/6.md); a wait is `T_EE` long (R81). -/
def FramedEvent (p : Params) : BusEvent → Prop
  | .probe _ _ => True
  | .write a7 w _ => ∃ ra l h, w = [ra, l, h, crc8 [a7.setWidth 8 <<< 1, ra, l, h]] ∧ ra ∈ p.eepromRegs
  | .writeRead _ w m ok r => (∃ ra, w = [ra]) ∧ m = 3 ∧ r.length = (if ok then 3 else 0)
  | .wait t => t = p.tEE ∧ 10 ≤ t

/-- The parameters meet R5 and every event of the history is framed. -/
def FramesInv (s : State) : Prop := s.params.wf = true ∧ ∀ e ∈ s.history, FramedEvent s.params e

/-- Every response has `RSV` = 0 and a status code that R90 lists, and the fault mark says exactly whether a NOT_BOUND
or ILLEGAL response has been given (R18, R45, R97). -/
def ResponsesInv (s : State) : Prop :=
  (∀ r ∈ s.responses, responseRsv r = 0#4 ∧ (responseStatus r).toNat ≤ 6) ∧
    s.faultMark = s.responses.any isFaultResponse

/-- The mock device's registers are in canonical form (the model's own invariant; notes/assumptions/7.md). -/
def CanonicalInv (s : State) : Prop :=
  match s.bus with
  | .oracle _ => True
  | .mock d => d.reg.wf = true

/-- Every write is followed at once by a wait of at least 10 time units (R103). -/
def Settled (h : List BusEvent) : Prop :=
  ∀ before a7 w ok after, h = before ++ .write a7 w ok :: after → ∃ t rest, after = .wait t :: rest ∧ 10 ≤ t

/-- The device is settled and the host issues no raw WRITE16 (R102, R103). -/
def SettledInv (s : State) : Prop :=
  s.params.wf = true ∧ Settled s.history ∧ ∀ w ∈ s.port, ∀ ra v, decode w ≠ .ok (.write16 ra v)

/-- The two states differ at most in `DEV_ADDR`, and not even there when bound (R10). -/
def SameButUnboundAddr (s s' : State) : Prop :=
  s' = { s with devAddr := s'.devAddr } ∧ (s.bound = true → s'.devAddr = s.devAddr)

/-! ## Bus traffic of a command (R25) -/

/-- One write-read of register `ra`: 1 byte written, 3 read when the bus succeeds, none recorded when it fails
(DESIGN CHOICE, notes/assumptions/6.md). -/
def IsRead (a7 : DevAddr) (ra : Byte) (e : BusEvent) : Prop :=
  ∃ ok r, e = .writeRead a7 [ra] 3 ok r ∧ r.length = (if ok then 3 else 0)

/-- Some write or write-read among the events was answered with failure (R90, R91). -/
def HasFailure (es : List BusEvent) : Prop :=
  (∃ a7 w m reply, .writeRead a7 w m false reply ∈ es) ∨ (∃ a7 w, .write a7 w false ∈ es)

/-- One write of 4 bytes to register `ra`. -/
def IsWrite (a7 : DevAddr) (ra : Byte) (e : BusEvent) : Prop :=
  ∃ b1 b2 b3 ok, e = .write a7 [ra, b1, b2, b3] ok

/-- Two writes and two waits, as R80 orders them. -/
def IsErasedWrite (a7 : DevAddr) (ra : Byte) (t : Nat) (es : List BusEvent) : Prop :=
  ∃ e1 e2, IsWrite a7 ra e1 ∧ IsWrite a7 ra e2 ∧ es = [e1, .wait t, e2, .wait t]

/-- The traffic of a filter setter: none, the read, or the read and one erase/write cycle (R25). -/
def IsSetterTraffic (a7 : DevAddr) (ra : Byte) (t : Nat) (es : List BusEvent) : Prop :=
  es = [] ∨ (∃ e, IsRead a7 ra e ∧ es = [e]) ∨
    ∃ e rest, IsRead a7 ra e ∧ IsErasedWrite a7 ra t rest ∧ es = e :: rest

/-- The bus traffic of each command that is not turned away by a fault (R25). -/
def IsTraffic (s : State) : Instr → List BusEvent → Prop
  | .init a7, es => ∃ present, es = [.probe a7 present]
  | .crcClear, es => es = []
  | .crcUpdate _, es => es = []
  | .crcCheck _, es => es = []
  | .read16 ra, es => ∃ e, IsRead s.devAddr ra e ∧ es = [e]
  | .write16 ra _, es => ∃ e, IsWrite s.devAddr ra e ∧ es = [e]
  | .eeWrite ra _, es => IsErasedWrite s.devAddr ra s.params.tEE es
  | .readNoise, es => ∃ e, IsRead s.devAddr s.params.regConfig e ∧ es = [e]
  | .readSpike, es => ∃ e, IsRead s.devAddr s.params.regConfig e ∧ es = [e]
  | .writeNoise _, es => IsSetterTraffic s.devAddr s.params.regConfig s.params.tEE es
  | .writeSpike _, es => IsSetterTraffic s.devAddr s.params.regConfig s.params.tEE es
  | .writeFilter _ _, es => IsSetterTraffic s.devAddr s.params.regConfig s.params.tEE es

/-- The command's register address, where it is a write's, is in `EEPROM_REGS` (R21). -/
def TargetOk (p : Params) : Instr → Prop
  | .write16 ra _ => ra ∈ p.eepromRegs
  | .eeWrite ra _ => ra ∈ p.eepromRegs
  | .init _ | .crcClear | .crcUpdate _ | .crcCheck _ | .read16 _ | .readNoise | .readSpike
  | .writeNoise _ | .writeSpike _ | .writeFilter _ _ => True

/-- The command's filter modes, where it has some, are valid (R84). -/
def ModesOk (p : Params) : Instr → Prop
  | .writeNoise m => m ∈ p.noiseValid
  | .writeSpike m => m.toNat ≤ 7
  | .writeFilter noise spike => noise ∈ p.noiseValid ∧ spike.toNat ≤ 7
  | .init _ | .crcClear | .crcUpdate _ | .crcCheck _ | .read16 _ | .write16 _ _ | .eeWrite _ _
  | .readNoise | .readSpike => True

/-! ## Effects written out -/

/-- The state after a faulted command whose response word is `r`: the response, the mark, and nothing else (R97). -/
def faulted (r : ResponseWord) (s : State) : State :=
  { s with responses := s.responses ++ [r], faultMark := true }

/-- The state after a command whose only effect is its response word `r`. -/
def answered (r : ResponseWord) (s : State) : State := { s with responses := s.responses ++ [r] }

/-- The four bytes of a write of `v`, with its PEC (R47, R48). -/
def writeBytes (a7 : DevAddr) (ra : Byte) (v : Word) : List Byte :=
  [ra, v.extractLsb' 0 8, v.extractLsb' 8 8,
    crc8 [a7.setWidth 8 <<< 1, ra, v.extractLsb' 0 8, v.extractLsb' 8 8]]

/-- The primitive that reads register `ra` of the bound device (R49). -/
def readQuery (s : State) (ra : Byte) : BusQuery := .writeRead s.devAddr [ra] 3

/-- The primitive that writes `v` to register `ra` of the bound device (R48). -/
def writeQuery (s : State) (ra : Byte) (v : Word) : BusQuery := .write s.devAddr (writeBytes s.devAddr ra v)

/-- The value of a read, `{r1, r0}`, or 0 when the bus failed. -/
def valueOf (a : BusAnswer) : Word := if a.ok then a.r1 ++ a.r0 else 0x0000#16

/-- The PEC byte of a read, or 0 when the bus failed. -/
def pecOf (a : BusAnswer) : Byte := if a.ok then a.r2 else 0x00#8

/-- The effect of EEWRITE's pseudocode (R80): erase, wait, write, wait in the history, OK when both writes succeeded
and BUS_FAIL otherwise, and no register changed. The bus collaborator answers the second write after the first write
and the first wait. -/
def erasedWrite (ra : Byte) (v : Word) (s : State) : State :=
  let q1 := writeQuery s ra 0x0000#16
  let q2 := writeQuery s ra v
  let s2 := waitSettle (s.issue q1)
  let ok1 := (s.answer q1).ok
  let ok2 := (s2.answer q2).ok
  { s with
    history := s.history ++ [.write s.devAddr (writeBytes s.devAddr ra 0x0000#16) ok1, .wait s.params.tEE,
      .write s.devAddr (writeBytes s.devAddr ra v) ok2, .wait s.params.tEE]
    bus := (s2.bus.advance s.params q2).wait s.params s.params.tEE
    responses := s.responses ++ [if ok1 && ok2 then 0x00000000#32 else 0x10000000#32] }

/-- The effect of a setter's pseudocode after validation (R85 to R87), for the field mask `mask`: BUS_FAIL when the read
failed, SKIPPED when it gave 0x0000 or the field holds the request, else the erase/write cycle of the merged value. -/
def fieldUpdate (mask request : Word) (s : State) : State :=
  let a := s.answer (readQuery s s.params.regConfig)
  let s1 := s.issue (readQuery s s.params.regConfig)
  if a.ok = false then answered 0x10000000#32 s1
  else if valueOf a = 0x0000#16 then answered 0x30000000#32 s1
  else if valueOf a &&& mask = request then answered 0x30000000#32 s1
  else erasedWrite s.params.regConfig ((valueOf a &&& ~~~mask) ||| request) s1

end Sys2Proof
end

