-- ==== Sys2Proof/Certificates/Slice0/Obligations.lean ====
section
/-! DEFINITION. The statements about the machine, for the provers. Each docstring names the rule of spec/ it
formalises. Statements hold for every state, hence for every parameter value, every bus answer and every command the
host may issue next. -/

open Sys2Proof Sys2Proof.Machine

/-! ## Encodings -/

/-- R55: each line of the table assembles to its word, and each word decodes to the command, or is illegal. The
symbolic defaults of D6 play no part: the operands are numbers. -/
def Obligations.EncodedExamplesDecode : Prop :=
  ∀ p : Params,
    (assembleWord p "INIT 0x5A".toList = some 0x105A00000000#48 ∧
      decode 0x105A00000000#48 = .ok (.init 0x5A#7)) ∧
    (assembleWord p "CRC_CLEAR".toList = some 0x200000000000#48 ∧
      decode 0x200000000000#48 = .ok .crcClear) ∧
    (assembleWord p "CRC_UPDATE 0xB4".toList = some 0x30B400000000#48 ∧
      decode 0x30B400000000#48 = .ok (.crcUpdate 0xB4#8)) ∧
    (assembleWord p "CRC_CHECK 0x28".toList = some 0x402800000000#48 ∧
      decode 0x402800000000#48 = .ok (.crcCheck 0x28#8)) ∧
    (assembleWord p "READ16 0x25".toList = some 0x502500000000#48 ∧
      decode 0x502500000000#48 = .ok (.read16 0x25#8)) ∧
    (assembleWord p "WRITE16 0x24, 0x0000".toList = some 0x602400000000#48 ∧
      decode 0x602400000000#48 = .ok (.write16 0x24#8 0x0000#16)) ∧
    (assembleWord p "EEWRITE 0x24, 0xFFFF".toList = some 0x70240000FFFF#48 ∧
      decode 0x70240000FFFF#48 = .ok (.eeWrite 0x24#8 0xFFFF#16)) ∧
    (assembleWord p "READ_NOISE".toList = some 0x800000000000#48 ∧
      decode 0x800000000000#48 = .ok .readNoise) ∧
    (assembleWord p "READ_SPIKE".toList = some 0x900000000000#48 ∧
      decode 0x900000000000#48 = .ok .readSpike) ∧
    (assembleWord p "WRITE_NOISE 0x0500".toList = some 0xA00000000500#48 ∧
      decode 0xA00000000500#48 = .ok (.writeNoise 0x0500#16)) ∧
    (assembleWord p "WRITE_SPIKE 0x0004".toList = some 0xB00000000004#48 ∧
      decode 0xB00000000004#48 = .ok (.writeSpike 0x0004#16)) ∧
    (assembleWord p "WRITE_FILTER 0x0600, 0x0003".toList = some 0xC00006000003#48 ∧
      decode 0xC00006000003#48 = .ok (.writeFilter 0x0600#16 0x0003#16)) ∧
    CommandWord.legal 0xD00000000000#48 = false ∧ decode 0xD00000000000#48 = .error .reservedOp ∧
    CommandWord.legal 0x10DA00000000#48 = false ∧ decode 0x10DA00000000#48 = .error .initBit7

/-- Decoding the word of any command gives the command back, with every operand at every value. -/
def Obligations.DecodeEncodeRoundTrip : Prop := ∀ i : Instr, decode (encode i) = .ok i

/-- Each command has one word: a word that decodes to `i` is the word of `i`. -/
def Obligations.EncodeDecodeRoundTrip : Prop :=
  ∀ (w : CommandWord) (i : Instr), decode w = .ok i → encode i = w

/-- R43: a word encodes a mnemonic exactly when it fits the mnemonic's mask and match, no word fits two rows, and the
operands are the fields R, A and B of the row. -/
def Obligations.DecodeAgreesWithOpcodeTable : Prop :=
  (∀ (w : CommandWord) (row : TableRow), row ∈ opcodeTable →
    ((∃ i, decode w = .ok i ∧ i.mnemonic = row.mnemonic) ↔ w &&& row.mask = row.pattern)) ∧
  (∀ (w : CommandWord) (row row' : TableRow), row ∈ opcodeTable → row' ∈ opcodeTable →
    w &&& row.mask = row.pattern → w &&& row'.mask = row'.pattern → row = row') ∧
  (∀ (w : CommandWord) (i : Instr), decode w = .ok i →
    match i with
    | .init a7 => a7 = w.extractLsb' 32 7
    | .crcClear => True
    | .crcUpdate b => b = w.extractLsb' 32 8
    | .crcCheck p => p = w.extractLsb' 32 8
    | .read16 ra => ra = w.extractLsb' 32 8
    | .write16 ra v => ra = w.extractLsb' 32 8 ∧ v = w.extractLsb' 0 16
    | .eeWrite ra v => ra = w.extractLsb' 32 8 ∧ v = w.extractLsb' 0 16
    | .readNoise => True
    | .readSpike => True
    | .writeNoise m => m = w.extractLsb' 0 16
    | .writeSpike m => m = w.extractLsb' 0 16
    | .writeFilter noise spike => noise = w.extractLsb' 16 16 ∧ spike = w.extractLsb' 0 16)

/-- R44: a word whose `OP` is 0x0, 0xD, 0xE or 0xF, or whose must-be-zero fields are not zero, is legal for no row; every
word is a command or illegal; and an illegal word is answered with ILLEGAL and has no other effect. -/
def Obligations.IllegalWordsAnswered : Prop :=
  (∀ w : CommandWord, w.extractLsb' 44 4 ∈ [0x0#4, 0xD#4, 0xE#4, 0xF#4] → CommandWord.legal w = false) ∧
  (∀ w : CommandWord, w.extractLsb' 40 4 ≠ 0#4 → CommandWord.legal w = false) ∧
  (∀ w : CommandWord, w.extractLsb' 44 4 = 0x1#4 → w.getLsbD 39 = true → CommandWord.legal w = false) ∧
  (∀ w : CommandWord, CommandWord.legal w = true ↔ ∃ i, decode w = .ok i) ∧
  (∀ (s : State) (w : CommandWord) (rest : List CommandWord), s.port = w :: rest → CommandWord.legal w = false →
    step s = .next (faulted 0x60000000#32 { s with port := rest }))

/-! ## The step -/

/-- A step runs the decoded command: when the next word at the port decodes to `i`, the step is `exec i` at the state
with that word taken from the port. -/
def Obligations.StepRunsDecodedCommand : Prop :=
  ∀ (s : State) (w : CommandWord) (rest : List CommandWord) (i : Instr),
    s.port = w :: rest → decode w = .ok i → step s = exec i { s with port := rest }

/-- With no command at the port a step changes nothing (the model's choice, notes/assumptions/5.md, from R29 item 4). -/
def Obligations.IdleStepChangesNothing : Prop := ∀ s : State, s.port = [] → step s = .next s

/-- Every command, legal or not, takes one word from the port and gives exactly one response word, whose `RSV` is 0 and
whose status is one of the seven codes of R90; no command stops the machine. -/
def Obligations.EveryCommandGivesOneResponse : Prop :=
  ∀ (s : State) (w : CommandWord) (rest : List CommandWord), s.port = w :: rest →
    ∃ t r, step s = .next t ∧ t.port = rest ∧ t.responses = s.responses ++ [r] ∧
      responseRsv r = 0#4 ∧ (responseStatus r).toNat ≤ 6

/-- R45: where each field of the response word stands. -/
def Obligations.ResponseWordFields : Prop :=
  ∀ (st : Status) (aux : Byte) (data : Word),
    (responseWord st aux data).extractLsb' 28 4 = st.code ∧
    (responseWord st aux data).extractLsb' 24 4 = 0#4 ∧
    (responseWord st aux data).extractLsb' 16 8 = aux ∧
    (responseWord st aux data).extractLsb' 0 16 = data

/-! ## The CRC-8 generator -/

/-- R71: the bit loop is eight steps on the exclusive or of accumulator and byte. -/
def Obligations.CrcLoopEqualsEightSteps : Prop :=
  ∀ acc b : Byte, crcByte acc b =
    crcStep (crcStep (crcStep (crcStep (crcStep (crcStep (crcStep (crcStep (acc ^^^ b))))))))

/-- R76: the five laws of `crc8`. -/
def Obligations.CrcLawsHold : Prop :=
  crc8 [] = 0x00#8 ∧
  (∀ s : List Byte, crc8 (0x00#8 :: s) = crc8 s) ∧
  (∀ s t : List Byte, s.length = t.length → crc8 (List.zipWith (· ^^^ ·) s t) = crc8 s ^^^ crc8 t) ∧
  (∀ s : List Byte, crc8 (s ++ [crc8 s]) = 0x00#8) ∧
  (∀ b : Byte, crc8 [b] = crcByte 0x00#8 b) ∧
  crc8 [0x01#8] = 0x07#8 ∧ crc8 [0x80#8] = 0x89#8 ∧ crc8 [0xFF#8] = 0xF3#8

/-- R73: CRC_CLEAR, from its word to its effect. -/
def Obligations.CrcClearResult : Prop :=
  decode (0x2#4 ++ 0#4 ++ 0#8 ++ 0#16 ++ 0#16) = .ok .crcClear ∧
  ∀ s : State, exec .crcClear s =
    .next { s with crcAcc := 0x00#8, responses := s.responses ++ [0x00000000#32] }

/-- R74: CRC_UPDATE, from its word to its effect; 0x00 fed to 0x00 leaves 0x00 (corner case 1). The last clause is the
fold that corner case 2 speaks of; the run of commands is `CrcCommandsComputeCrc8`. -/
def Obligations.CrcUpdateResult : Prop :=
  (∀ b : Byte, decode (0x3#4 ++ 0#4 ++ b ++ 0#16 ++ 0#16) = .ok (.crcUpdate b)) ∧
  (∀ (b : Byte) (s : State), exec (.crcUpdate b) s =
    .next { s with crcAcc := crcByte s.crcAcc b, responses := s.responses ++ [0x00#8 ++ crcByte s.crcAcc b ++ 0x0000#16] }) ∧
  crcByte 0x00#8 0x00#8 = 0x00#8 ∧
  (∀ bytes : List Byte, bytes.foldl crcByte 0x00#8 = crc8 bytes)

/-- R75: CRC_CHECK, from its word to its effect; a mismatch is OK too, and `CRC_ACC` is not changed. -/
def Obligations.CrcCheckResult : Prop :=
  (∀ p : Byte, decode (0x4#4 ++ 0#4 ++ p ++ 0#16 ++ 0#16) = .ok (.crcCheck p)) ∧
  (∀ (p : Byte) (s : State), s.crcAcc = p → exec (.crcCheck p) s =
    .next { s with responses := s.responses ++ [0x00#8 ++ s.crcAcc ++ 0x0001#16] }) ∧
  (∀ (p : Byte) (s : State), s.crcAcc ≠ p → exec (.crcCheck p) s =
    .next { s with responses := s.responses ++ [0x00#8 ++ s.crcAcc ++ 0x0000#16] })

/-- R54's row for `CRC8`, with R74 corner case 2: a host that issues CRC_CLEAR and then CRC_UPDATE for each byte leaves
`CRC_ACC` at `crc8` of the bytes, which is the `AUX` of the last response; nothing else but the responses and the port
changes. -/
def Obligations.CrcCommandsComputeCrc8 : Prop :=
  ∀ (s : State) (p : Params) (bytes : List Byte) (rest : List CommandWord),
    s.port = ((SourceOp.crc8Of bytes).expand p).map encode ++ rest →
    ∃ t, Host.Core.run core (bytes.length + 1) s = .next t ∧
      t.crcAcc = crc8 bytes ∧
      (∃ init, t.responses = s.responses ++ init ++ [0x00#8 ++ crc8 bytes ++ 0x0000#16] ∧ init.length = bytes.length) ∧
      t = { s with crcAcc := t.crcAcc, responses := t.responses, port := rest }

/-- R54's row for comparing a received PEC: the last response's `DATA` is 1 when the PEC is `crc8` of the frame, else
0. -/
def Obligations.PecComparisonAnswers : Prop :=
  ∀ (s : State) (p : Params) (pec : Byte) (frame : List Byte) (rest : List CommandWord),
    s.port = ((SourceOp.comparePec pec frame).expand p).map encode ++ rest →
    ∃ t init, Host.Core.run core (frame.length + 2) s = .next t ∧
      t.responses = s.responses ++ init ++
        [0x00#8 ++ crc8 frame ++ (if crc8 frame = pec then 0x0001#16 else 0x0000#16)] ∧
      init.length = frame.length + 1 ∧ t.history = s.history ∧ t.bound = s.bound ∧ t.devAddr = s.devAddr

/-! ## Transport -/

/-- R60: INIT, from its word to its effect, in every state. -/
def Obligations.InitResult : Prop :=
  (∀ a7 : DevAddr, decode (0x1#4 ++ 0#4 ++ (0#1 ++ a7) ++ 0#16 ++ 0#16) = .ok (.init a7)) ∧
  ∀ (a7 : DevAddr) (s : State),
    let present := (s.answer (.probe a7)).ok
    exec (.init a7) s = .next { s with
      devAddr := a7
      bound := present
      history := s.history ++ [.probe a7 present]
      bus := s.bus.advance s.params (.probe a7)
      responses := s.responses ++ [if present then 0x00000001#32 else 0x40000000#32] }

/-- R61: READ16, from its word to its effect, for every register address and every bus answer; NOT_BOUND when unbound.
That the event of a failed read records no reply bytes is the model's choice (DESIGN CHOICE, notes/assumptions/6.md). -/
def Obligations.Read16Result : Prop :=
  (∀ ra : Byte, decode (0x5#4 ++ 0#4 ++ ra ++ 0#16 ++ 0#16) = .ok (.read16 ra)) ∧
  (∀ (ra : Byte) (s : State), s.bound = true →
    let a := s.answer (.writeRead s.devAddr [ra] 3)
    exec (.read16 ra) s = .next { s with
      history := s.history ++ [.writeRead s.devAddr [ra] 3 a.ok (if a.ok then [a.r0, a.r1, a.r2] else [])]
      bus := s.bus.advance s.params (.writeRead s.devAddr [ra] 3)
      responses := s.responses ++ [if a.ok then 0x00#8 ++ a.r2 ++ (a.r1 ++ a.r0) else 0x10000000#32] }) ∧
  (∀ (ra : Byte) (s : State), s.bound = false → exec (.read16 ra) s = .next (faulted 0x50000000#32 s))

/-- R62: WRITE16, from its word to its effect, for every value and every bus answer; ILLEGAL for a register outside
`EEPROM_REGS`, then NOT_BOUND when unbound. -/
def Obligations.Write16Result : Prop :=
  (∀ (ra : Byte) (v : Word), decode (0x6#4 ++ 0#4 ++ ra ++ 0#16 ++ v) = .ok (.write16 ra v)) ∧
  (∀ (ra : Byte) (v : Word) (s : State), ra ∈ s.params.eepromRegs → s.bound = true →
    let w := [ra, v.extractLsb' 0 8, v.extractLsb' 8 8,
      crc8 [s.devAddr.setWidth 8 <<< 1, ra, v.extractLsb' 0 8, v.extractLsb' 8 8]]
    let ok := (s.answer (.write s.devAddr w)).ok
    exec (.write16 ra v) s = .next { s with
      history := s.history ++ [.write s.devAddr w ok]
      bus := s.bus.advance s.params (.write s.devAddr w)
      responses := s.responses ++ [if ok then 0x00000000#32 else 0x10000000#32] }) ∧
  (∀ (ra : Byte) (v : Word) (s : State), ra ∉ s.params.eepromRegs →
    exec (.write16 ra v) s = .next (faulted 0x60000000#32 s)) ∧
  (∀ (ra : Byte) (v : Word) (s : State), ra ∈ s.params.eepromRegs → s.bound = false →
    exec (.write16 ra v) s = .next (faulted 0x50000000#32 s))

/-! ## EEPROM policy and filter fields -/

/-- R80: EEWRITE, from its word to its effect, for every value and every bus answer; ILLEGAL for a register outside
`EEPROM_REGS`, then NOT_BOUND when unbound. -/
def Obligations.EeWriteResult : Prop :=
  (∀ (ra : Byte) (v : Word), decode (0x7#4 ++ 0#4 ++ ra ++ 0#16 ++ v) = .ok (.eeWrite ra v)) ∧
  (∀ (ra : Byte) (v : Word) (s : State), ra ∈ s.params.eepromRegs → s.bound = true →
    exec (.eeWrite ra v) s = .next (erasedWrite ra v s)) ∧
  (∀ (ra : Byte) (v : Word) (s : State), ra ∉ s.params.eepromRegs →
    exec (.eeWrite ra v) s = .next (faulted 0x60000000#32 s)) ∧
  (∀ (ra : Byte) (v : Word) (s : State), ra ∈ s.params.eepromRegs → s.bound = false →
    exec (.eeWrite ra v) s = .next (faulted 0x50000000#32 s))

/-- R82: READ_NOISE, from its word to its effect; NOT_BOUND when unbound. -/
def Obligations.ReadNoiseResult : Prop :=
  decode (0x8#4 ++ 0#4 ++ 0#8 ++ 0#16 ++ 0#16) = .ok .readNoise ∧
  (∀ s : State, s.bound = true →
    let a := s.answer (readQuery s s.params.regConfig)
    exec .readNoise s = .next { s.issue (readQuery s s.params.regConfig) with
      responses := s.responses ++
        [if a.ok then 0x00#8 ++ a.r2 ++ (valueOf a &&& 0x0700#16) else 0x10000000#32] }) ∧
  (∀ s : State, s.bound = false → exec .readNoise s = .next (faulted 0x50000000#32 s))

/-- R83: READ_SPIKE, from its word to its effect, under either setting of `SPIKE_FAIL_TEST`; NOT_BOUND when unbound. -/
def Obligations.ReadSpikeResult : Prop :=
  decode (0x9#4 ++ 0#4 ++ 0#8 ++ 0#16 ++ 0#16) = .ok .readSpike ∧
  (∀ s : State, s.bound = true →
    let a := s.answer (readQuery s s.params.regConfig)
    let failed := match s.params.spikeFailTest with
      | .zeroValue => decide (valueOf a = 0x0000#16)
      | .busStatus => !a.ok
    exec .readSpike s = .next { s.issue (readQuery s s.params.regConfig) with
      responses := s.responses ++
        [(if a.ok then 0x00#8 else 0x10#8) ++ pecOf a ++ (if failed then 0x1000#16 else valueOf a &&& 0x0007#16)] }) ∧
  (∀ s : State, s.bound = false → exec .readSpike s = .next (faulted 0x50000000#32 s))

/-- R83 corner cases 1 to 3: a failed read gives 0x1000 under either setting of `SPIKE_FAIL_TEST`; the settings differ
only on a successful read of 0x0000. -/
def Obligations.SpikeFailTestSettingsDiffer : Prop :=
  ∀ (s t u : State),
    let a := s.answer (readQuery s s.params.regConfig)
    s.bound = true →
    exec .readSpike { s with params := { s.params with spikeFailTest := .zeroValue } } = .next t →
    exec .readSpike { s with params := { s.params with spikeFailTest := .busStatus } } = .next u →
    (a.ok = false → t.responses = s.responses ++ [0x10001000#32] ∧ u.responses = s.responses ++ [0x10001000#32]) ∧
    (a.ok = true → valueOf a = 0x0000#16 →
      t.responses = s.responses ++ [0x00#8 ++ a.r2 ++ 0x1000#16] ∧
      u.responses = s.responses ++ [0x00#8 ++ a.r2 ++ 0x0000#16]) ∧
    (a.ok = true → valueOf a ≠ 0x0000#16 →
      t.responses = s.responses ++ [0x00#8 ++ a.r2 ++ (valueOf a &&& 0x0007#16)] ∧ u.responses = t.responses)

/-- R85: WRITE_NOISE, from its word to its effect, for every bus answer; NOT_BOUND when unbound, whatever the mode;
IGNORED for an invalid mode. -/
def Obligations.WriteNoiseResult : Prop :=
  (∀ m : Word, decode (0xA#4 ++ 0#4 ++ 0#8 ++ 0#16 ++ m) = .ok (.writeNoise m)) ∧
  (∀ (m : Word) (s : State), s.bound = true → m ∈ s.params.noiseValid →
    exec (.writeNoise m) s = .next (fieldUpdate 0x0700#16 m s)) ∧
  (∀ (m : Word) (s : State), s.bound = true → m ∉ s.params.noiseValid →
    exec (.writeNoise m) s = .next (answered 0x20000000#32 s)) ∧
  (∀ (m : Word) (s : State), s.bound = false → exec (.writeNoise m) s = .next (faulted 0x50000000#32 s))

/-- R86: WRITE_SPIKE, from its word to its effect, for every bus answer; NOT_BOUND when unbound, whatever the mode;
IGNORED for an invalid mode. -/
def Obligations.WriteSpikeResult : Prop :=
  (∀ m : Word, decode (0xB#4 ++ 0#4 ++ 0#8 ++ 0#16 ++ m) = .ok (.writeSpike m)) ∧
  (∀ (m : Word) (s : State), s.bound = true → m.toNat ≤ 7 →
    exec (.writeSpike m) s = .next (fieldUpdate 0x0007#16 m s)) ∧
  (∀ (m : Word) (s : State), s.bound = true → 7 < m.toNat →
    exec (.writeSpike m) s = .next (answered 0x20000000#32 s)) ∧
  (∀ (m : Word) (s : State), s.bound = false → exec (.writeSpike m) s = .next (faulted 0x50000000#32 s))

/-- R87: WRITE_FILTER, from its word to its effect, for every bus answer; NOT_BOUND when unbound, whatever the modes;
IGNORED when either mode is invalid. -/
def Obligations.WriteFilterResult : Prop :=
  (∀ m n : Word, decode (0xC#4 ++ 0#4 ++ 0#8 ++ m ++ n) = .ok (.writeFilter m n)) ∧
  (∀ (m n : Word) (s : State), s.bound = true → m ∈ s.params.noiseValid → n.toNat ≤ 7 →
    exec (.writeFilter m n) s = .next (fieldUpdate 0x0707#16 (m ||| n) s)) ∧
  (∀ (m n : Word) (s : State), s.bound = true → m ∉ s.params.noiseValid ∨ 7 < n.toNat →
    exec (.writeFilter m n) s = .next (answered 0x20000000#32 s)) ∧
  (∀ (m n : Word) (s : State), s.bound = false → exec (.writeFilter m n) s = .next (faulted 0x50000000#32 s))

/-- R88: the value a setter writes keeps every bit outside its field mask and holds the request in the field; the
dual-IIR bit 6 is kept. The value is read from the second write of the history a setter leaves. -/
def Obligations.SettersPreserveOtherBits : Prop :=
  ∀ (s t : State) (i : Instr) (mask request : Word) (read e1 e2 e3 e4 : BusEvent),
    s.params.wf = true → ModesOk s.params i → s.bound = true →
    ((i = .writeNoise request ∧ mask = 0x0700#16) ∨ (i = .writeSpike request ∧ mask = 0x0007#16) ∨
      (∃ m n, i = .writeFilter m n ∧ request = m ||| n ∧ mask = 0x0707#16)) →
    exec i s = .next t → t.history = s.history ++ [read, e1, e2, e3, e4] →
    ∃ r0 r1 r2 l h pec ok,
      read = .writeRead s.devAddr [s.params.regConfig] 3 true [r0, r1, r2] ∧
      e3 = .write s.devAddr [s.params.regConfig, l, h, pec] ok ∧
      (h ++ l : Word) &&& ~~~mask = (r1 ++ r0 : Word) &&& ~~~mask ∧
      (h ++ l : Word) &&& mask = request ∧
      (h ++ l : Word).getLsbD 6 = (r1 ++ r0 : Word).getLsbD 6

/-- R84: an invalid filter-mode request issues no bus event, changes no register and responds IGNORED. -/
def Obligations.InvalidModesIgnored : Prop :=
  ∀ (i : Instr) (s : State), s.bound = true → ¬ ModesOk s.params i →
    exec i s = .next { s with responses := s.responses ++ [0x20000000#32] }

/-! ## Outcomes and faults -/

/-- R92: a transactor command while unbound issues no bus event, changes no register and responds NOT_BOUND, with the
fault mark set (its write target being in `EEPROM_REGS`, R96); INIT and the CRC commands are never NOT_BOUND. -/
def Obligations.UnboundTransactorFaults : Prop :=
  (∀ (i : Instr) (s : State), i.isTransactor = true → TargetOk s.params i → s.bound = false →
    exec i s = .next { s with responses := s.responses ++ [0x50000000#32], faultMark := true }) ∧
  (∀ (i : Instr) (s t : State), i.isTransactor = false → exec i s = .next t →
    ∃ r, t.responses = s.responses ++ [r] ∧ responseStatus r ≠ 0x5#4)

/-- R93: an illegal word, and a write to a register outside `EEPROM_REGS`, respond ILLEGAL, issue no bus event and
change no register, bound or not; the fault mark is set. -/
def Obligations.IllegalCommandsFault : Prop :=
  (∀ (s : State) (w : CommandWord) (rest : List CommandWord), s.port = w :: rest → CommandWord.legal w = false →
    step s = .next { s with port := rest, responses := s.responses ++ [0x60000000#32], faultMark := true }) ∧
  (∀ (i : Instr) (s : State), ¬ TargetOk s.params i →
    exec i s = .next { s with responses := s.responses ++ [0x60000000#32], faultMark := true })

/-- R96: the checks are made in the order illegal word, write target, binding, filter mode, pseudocode, and the first
that applies decides the status; the pseudocode gives none of the earlier checks' statuses. -/
def Obligations.OutcomePriority : Prop :=
  ∀ (s t : State) (w : CommandWord) (rest : List CommandWord), s.port = w :: rest → step s = .next t →
    ∃ r, t.responses = s.responses ++ [r] ∧
      ((∀ i, decode w ≠ .ok i) → responseStatus r = 0x6#4) ∧
      (∀ i, decode w = .ok i → ¬ TargetOk s.params i → responseStatus r = 0x6#4) ∧
      (∀ i, decode w = .ok i → TargetOk s.params i → i.isTransactor = true → s.bound = false →
        responseStatus r = 0x5#4) ∧
      (∀ i, decode w = .ok i → s.bound = true → ¬ ModesOk s.params i → responseStatus r = 0x2#4) ∧
      (∀ i, decode w = .ok i → TargetOk s.params i → (i.isTransactor = true → s.bound = true) → ModesOk s.params i →
        responseStatus r ∈ [0x0#4, 0x1#4, 0x3#4, 0x4#4])

/-- R91, both ways. A command that answers BUS_FAIL changed no register of the block and no fault mark, a primitive of
it did fail, and nothing is retried: its traffic is the one R25 lists, and after a failed read nothing follows. And a
command other than INIT one of whose new events is a failed write or write-read answers BUS_FAIL. That the event of a
failed read records no reply bytes (`IsTraffic`) is the model's choice (DESIGN CHOICE, notes/assumptions/6.md). -/
def Obligations.BusFailureReportedOnce : Prop :=
  ∀ (s t : State) (i : Instr) (r : ResponseWord), exec i s = .next t → t.responses = s.responses ++ [r] →
    (responseStatus r = 0x1#4 →
      t.devAddr = s.devAddr ∧ t.bound = s.bound ∧ t.crcAcc = s.crcAcc ∧ t.faultMark = s.faultMark ∧
      ∃ es, t.history = s.history ++ es ∧ IsTraffic s i es ∧ HasFailure es ∧
        ((∃ a7 w m reply, .writeRead a7 w m false reply ∈ es) → es.length = 1)) ∧
    (∀ es, (∀ a7, i ≠ .init a7) → t.history = s.history ++ es → HasFailure es → responseStatus r = 0x1#4)

/-! ## Frames and ordering -/

/-- The frame of every command: parameters and port are unchanged; only INIT writes `DEV_ADDR` and `BOUND`; only
CRC_CLEAR and CRC_UPDATE write `CRC_ACC`; the CRC commands leave the history and the bus alone; history and responses
only grow; the fault mark is never cleared. -/
def Obligations.FrameOfEveryCommand : Prop :=
  ∀ (i : Instr) (s t : State), exec i s = .next t →
    t.params = s.params ∧ t.port = s.port ∧
    ((∀ a7, i ≠ .init a7) → t.devAddr = s.devAddr ∧ t.bound = s.bound) ∧
    (i ≠ .crcClear → (∀ b, i ≠ .crcUpdate b) → t.crcAcc = s.crcAcc) ∧
    ((i = .crcClear ∨ (∃ b, i = .crcUpdate b) ∨ (∃ p, i = .crcCheck p)) →
      t.history = s.history ∧ t.bus = s.bus ∧ t.faultMark = s.faultMark) ∧
    (∃ es, t.history = s.history ++ es) ∧ (∃ r, t.responses = s.responses ++ [r]) ∧
    (s.faultMark = true → t.faultMark = true)

/-- R10 to R12 over whole steps: a step that changes `DEV_ADDR` or `BOUND` ran INIT, and one that changes `CRC_ACC` ran
CRC_CLEAR or CRC_UPDATE. -/
def Obligations.RegistersChangeOnlyByTheirCommands : Prop :=
  ∀ s t : State, step s = .next t →
    ((t.devAddr ≠ s.devAddr ∨ t.bound ≠ s.bound) →
      ∃ w rest a7, s.port = w :: rest ∧ decode w = .ok (.init a7) ∧ t.devAddr = a7) ∧
    (t.crcAcc ≠ s.crcAcc →
      ∃ w rest, s.port = w :: rest ∧
        ((decode w = .ok .crcClear ∧ t.crcAcc = 0x00#8) ∨
          ∃ b, decode w = .ok (.crcUpdate b) ∧ t.crcAcc = crcByte s.crcAcc b))

/-- The bus traffic of each command that no fault turns away (R25), addressed to `DEV_ADDR` (R20), with erase, wait, write
and wait in R80's order; and none for a faulted one (R92, R93). R25 lists 3 bytes read; that the event of a failed read
records none (`IsRead`) is the model's choice (DESIGN CHOICE, notes/assumptions/6.md). -/
def Obligations.TrafficOfEachCommand : Prop :=
  ∀ (i : Instr) (s t : State), exec i s = .next t →
    ∃ es, t.history = s.history ++ es ∧
      ((TargetOk s.params i ∧ (i.isTransactor = true → s.bound = true)) → IsTraffic s i es) ∧
      (¬ (TargetOk s.params i ∧ (i.isTransactor = true → s.bound = true)) → es = [])

/-- R109: every command issues at most five events and ends; the history before it stands. -/
def Obligations.AtMostFiveEventsPerStep : Prop :=
  ∀ s : State, ∃ t es, step s = .next t ∧ t.history = s.history ++ es ∧ es.length ≤ 5

/-- R29 item 3: each primitive, and each wait, appends exactly one event, with the answer it got, in issue order, and
moves nothing of the block but the history (the bus collaborator moves on). That the event of a failed write-read records
no reply bytes is the model's choice (DESIGN CHOICE, notes/assumptions/6.md). So is that a successful one records three
reply bytes whatever `m` is: R8 says `m` bytes, and a bus answer holds three because every write-read the block issues
asks for three (DEDUCED, notes/assumptions/15.md). -/
def Obligations.PrimitiveAppendsOneEvent : Prop :=
  ∀ s : State,
    (∀ a7, (s.issue (.probe a7)).history = s.history ++ [.probe a7 (s.answer (.probe a7)).ok]) ∧
    (∀ a7 w, (s.issue (.write a7 w)).history = s.history ++ [.write a7 w (s.answer (.write a7 w)).ok]) ∧
    (∀ a7 w m, let a := s.answer (.writeRead a7 w m)
      (s.issue (.writeRead a7 w m)).history =
        s.history ++ [.writeRead a7 w m a.ok (if a.ok then [a.r0, a.r1, a.r2] else [])]) ∧
    (waitSettle s).history = s.history ++ [.wait s.params.tEE] ∧
    (∀ q, s.issue q = { s with history := (s.issue q).history, bus := (s.issue q).bus }) ∧
    waitSettle s = { s with history := (waitSettle s).history, bus := (waitSettle s).bus }

/-- R28: the oracle may answer anything: every answer is given in some state that differs only in the oracle. The script
of answers, and that the primitives after it are answered by its rest, are the model's form of R28's oracle (DESIGN
CHOICE, notes/assumptions/3.md); that an answer holds three reply bytes is too (DEDUCED, notes/assumptions/15.md). -/
def Obligations.OracleMayAnswerAnything : Prop :=
  ∀ (s : State) (q : BusQuery) (a : BusAnswer) (script : List BusAnswer),
    ({ s with bus := .oracle (a :: script) }).answer q = a ∧
    (({ s with bus := .oracle (a :: script) }).issue q).bus = .oracle script

/-- R22 and R50: a value split into `lo` and `hi` and assembled again is the value, and the first byte is the low one. -/
def Obligations.ByteOrderRoundTrip : Prop :=
  (∀ v : Word, assemble (lo v) (hi v) = v) ∧ (∀ b0 b1 : Byte, lo (assemble b0 b1) = b0 ∧ hi (assemble b0 b1) = b1) ∧
  (∀ b0 b1 : Byte, assemble b0 b1 = b1 ++ b0)

/-! ## Reset -/

/-- R100: what reset leaves, whatever the parameters, the bus, the host and the unspecified `DEV_ADDR`; the device behind
the bus and the parameters are not reset. The empty response list is the model's own (DESIGN CHOICE,
notes/assumptions/9.md). The machine's own reset, `State.reset`, is one of these states; which parameters, address, bus
and port it has is the model's choice (notes/assumptions/1.md, 2.md, 3.md and 9.md), and nothing is said of them. -/
def Obligations.ResetLeaves : Prop :=
  (∀ (p : Params) (a7 : DevAddr) (bus : Bus) (port : List CommandWord),
    let s := State.resetOf p a7 bus port
    s.bound = false ∧ s.crcAcc = 0x00#8 ∧ s.history = [] ∧ s.devAddr = a7 ∧ s.faultMark = false ∧ s.responses = [] ∧
      s.bus = bus ∧ s.params = p) ∧
  (∃ (p : Params) (a7 : DevAddr) (bus : Bus) (port : List CommandWord), State.reset = State.resetOf p a7 bus port) ∧
  core.reset = State.reset

/-- The invariants hold after reset, whatever the parameters (within R5), the oracle's script and `DEV_ADDR`, and they
hold at `State.reset`. There `FramesInv` and `SettledInv` rest on the model's choices that its parameters are the defaults
of D5 to D9 (PRESUMED, notes/assumptions/2.md) and its port is empty (DESIGN CHOICE, notes/assumptions/9.md). -/
def Obligations.InvariantsHoldAtReset : Prop :=
  ∀ (p : Params) (a7 : DevAddr) (script : List BusAnswer) (port : List CommandWord), p.wf = true →
    let s := State.resetOf p a7 (.oracle script) port
    BindingInv s ∧ FramesInv s ∧ ResponsesInv s ∧ CanonicalInv s ∧ Settled s.history ∧ s.Safe ∧
      BindingInv State.reset ∧ FramesInv State.reset ∧ ResponsesInv State.reset ∧ SettledInv State.reset

/-! ## Invariants -/

/-- `DEV_ADDR` and `BOUND` always say what the last probe found, and every bus transaction ever issued went to the
device the last INIT before it had found present. -/
def Obligations.StepKeepsBinding : Prop :=
  ∀ s t : State, BindingInv s → step s = .next t → BindingInv t

/-- Every write on the bus carries the PEC of its frame and goes to an EEPROM register; every write-read sends one
register address and asks for three reply bytes, with three recorded when it succeeded; every wait is `T_EE`, at least
10. That a failed write-read records no reply bytes is the model's choice (DESIGN CHOICE, notes/assumptions/6.md). -/
def Obligations.StepKeepsFrames : Prop :=
  ∀ s t : State, FramesInv s → step s = .next t → FramesInv t

/-- Every response is well formed, and the fault mark is set exactly when a fault response has been given. -/
def Obligations.StepKeepsResponses : Prop :=
  ∀ s t : State, ResponsesInv s → step s = .next t → ResponsesInv t

/-- The mock device's register list stays in canonical form (the model's own invariant, notes/assumptions/7.md). -/
def Obligations.StepKeepsCanonicalMemory : Prop :=
  ∀ s t : State, CanonicalInv s → step s = .next t → CanonicalInv t

/-- A host that issues no raw WRITE16 never leaves a write unsettled: every write is followed at once by its wait. -/
def Obligations.StepKeepsSettled : Prop :=
  ∀ s t : State, SettledInv s → step s = .next t → SettledInv t

/-! ## Independence -/

/-- R10: while `BOUND` is 0 the value of `DEV_ADDR` is never observed: runs that differ only in it give the same
responses, history, registers and bus, step by step. -/
def Obligations.UnboundAddressUnobservable : Prop :=
  ∀ s s' : State, SameButUnboundAddr s s' →
    ∃ t t', step s = .next t ∧ step s' = .next t' ∧ SameButUnboundAddr t t'

/-- R12 and R19: only the CRC commands read or write `CRC_ACC`; INIT and the transactor commands do neither (R60 and
R77 say so of INIT, of the writes and of the setters). -/
def Obligations.CrcAccIndependent : Prop :=
  ∀ (i : Instr) (s t : State) (c : Byte), (i.isTransactor = true ∨ ∃ a7, i = .init a7) → exec i s = .next t →
    exec i { s with crcAcc := c } = .next { t with crcAcc := c } ∧ t.crcAcc = s.crcAcc
end

