-- ==== Sys2Proof/Laws/Decode.lean ====
section
/-! SUPPORT. The fields of a packed command word, and a packed word against the must-be-zero checks. -/

namespace Sys2Proof

variable (op : BitVec 4) (r : Byte) (a b : Word)

@[simp] theorem fieldOP_packWord : fieldOP (packWord op r a b) = op := by
  unfold fieldOP packWord
  ext i hi
  grind

@[simp] theorem fieldRSV_packWord : fieldRSV (packWord op r a b) = 0#4 := by
  unfold fieldRSV packWord
  ext i hi
  grind

@[simp] theorem fieldR_packWord : fieldR (packWord op r a b) = r := by
  unfold fieldR packWord
  ext i hi
  grind

@[simp] theorem fieldA_packWord : fieldA (packWord op r a b) = a := by
  unfold fieldA packWord
  ext i hi
  grind

@[simp] theorem fieldB_packWord : fieldB (packWord op r a b) = b := by
  unfold fieldB packWord
  ext i hi
  grind

/-- A word is its five fields. -/
theorem fields_append (w : CommandWord) :
    (fieldOP w ++ fieldRSV w ++ fieldR w ++ fieldA w ++ fieldB w : BitVec 48) = w := by
  unfold fieldOP fieldRSV fieldR fieldA fieldB
  ext i hi
  grind

/-- Two words are equal exactly when their fields are. -/
theorem eq_iff_fields {w w' : CommandWord} :
    w = w' ↔ fieldOP w = fieldOP w' ∧ fieldRSV w = fieldRSV w' ∧ fieldR w = fieldR w' ∧ fieldA w = fieldA w' ∧
      fieldB w = fieldB w' := by
  constructor
  · rintro rfl
    exact ⟨rfl, rfl, rfl, rfl, rfl⟩
  · rintro ⟨h1, h2, h3, h4, h5⟩
    rw [← fields_append w, ← fields_append w', h1, h2, h3, h4, h5]

/-- A masked word equals a pattern exactly when each masked field does: how a row of the opcode table reads. -/
theorem and_eq_iff_fields {w m p : CommandWord} :
    w &&& m = p ↔ fieldOP w &&& fieldOP m = fieldOP p ∧ fieldRSV w &&& fieldRSV m = fieldRSV p ∧
      fieldR w &&& fieldR m = fieldR p ∧ fieldA w &&& fieldA m = fieldA p ∧ fieldB w &&& fieldB m = fieldB p := by
  rw [eq_iff_fields]
  simp only [fieldOP, fieldRSV, fieldR, fieldA, fieldB, BitVec.extractLsb'_and]

/-- `checkZero` accepts exactly the words whose fields without an operand are zero. -/
theorem checkZero_eq_ok {useR useA useB : Bool} {w : CommandWord} {i j : Instr} :
    checkZero useR useA useB w i = .ok j ↔
      i = j ∧ fieldRSV w = 0#4 ∧ (useR = false → fieldR w = 0#8) ∧ (useA = false → fieldA w = 0#16) ∧
        (useB = false → fieldB w = 0#16) := by
  unfold checkZero
  split
  · simp_all
  · split
    · simp_all
    · split
      · simp_all
      · split
        · simp_all
        · simp_all

end Sys2Proof
end

