-- ==== Sys2Proof/Laws/Memory.lean ====
section
/-! SUPPORT. The mock device's register list: read after write, other addresses untouched, canonical form kept. -/

namespace Sys2Proof.Machine

/-- The canonical form from a lower bound holds from every smaller one. -/
theorem Memory.wfFrom_mono {m : Memory} {i j : Nat} (h : Memory.wfFrom j m = true) (hij : i ≤ j) :
    Memory.wfFrom i m = true := by
  cases m with
  | nil => rfl
  | cons e rest =>
    simp only [Memory.wfFrom, Bool.and_eq_true, decide_eq_true_eq] at h ⊢
    exact ⟨⟨by omega, h.1.2⟩, h.2⟩

theorem Memory.read_write_same (m : Memory) (a : Nat) (v : Word) : (m.write a v).read a = some v := by
  induction m with
  | nil => simp [Memory.write, Memory.read]
  | cons e rest ih =>
    unfold Memory.write
    split
    · simp [Memory.read]
    · split
      · simp [Memory.read]
      · simp [Memory.read, *]

theorem Memory.read_write_other (m : Memory) {a b : Nat} (v : Word) (h : b ≠ a) :
    (m.write a v).read b = m.read b := by
  induction m with
  | nil => simp [Memory.write, Memory.read, h]
  | cons e rest ih =>
    unfold Memory.write
    split
    · simp [Memory.read, h]
    · split
      · rename_i h1 h2
        simp [Memory.read, ← h2, h]
      · simp [Memory.read, ih]

theorem Memory.read_eq_none_of_wfFrom {m : Memory} {i a : Nat} (h : Memory.wfFrom i m = true) (ha : a < i) :
    m.read a = none := by
  induction m generalizing i with
  | nil => rfl
  | cons e rest ih =>
    simp only [Memory.wfFrom, Bool.and_eq_true, decide_eq_true_eq] at h
    have hne : a ≠ e.1 := by omega
    simpa [Memory.read, hne] using ih h.2 (by omega)

theorem Memory.read_poison_same {m : Memory} {i : Nat} (a : Nat) (h : Memory.wfFrom i m = true) :
    (m.poison a).read a = none := by
  induction m generalizing i with
  | nil => rfl
  | cons e rest ih =>
    simp only [Memory.wfFrom, Bool.and_eq_true, decide_eq_true_eq] at h
    unfold Memory.poison
    split
    · rename_i he
      exact Memory.read_eq_none_of_wfFrom h.2 (by omega)
    · simpa [Memory.read, *] using ih h.2

theorem Memory.read_poison_other (m : Memory) {a b : Nat} (h : b ≠ a) : (m.poison a).read b = m.read b := by
  induction m with
  | nil => rfl
  | cons e rest ih =>
    unfold Memory.poison
    split
    · rename_i he
      simp [Memory.read, ← he, h]
    · simp [Memory.read, ih]

/-- A write of an 8-bit address keeps the canonical form. -/
theorem Memory.wfFrom_write {m : Memory} {i a : Nat} (v : Word) (h : Memory.wfFrom i m = true) (hi : i ≤ a)
    (ha : a < 256) : Memory.wfFrom i (m.write a v) = true := by
  induction m generalizing i with
  | nil => simp [Memory.write, Memory.wfFrom, hi, ha]
  | cons e rest ih =>
    simp only [Memory.wfFrom, Bool.and_eq_true, decide_eq_true_eq] at h
    unfold Memory.write
    split
    · simp only [Memory.wfFrom, Bool.and_eq_true, decide_eq_true_eq]
      exact ⟨⟨hi, ha⟩, ⟨by omega, h.1.2⟩, h.2⟩
    · split
      · rename_i he
        simp only [Memory.wfFrom, Bool.and_eq_true, decide_eq_true_eq]
        exact ⟨⟨hi, ha⟩, he ▸ h.2⟩
      · simp only [Memory.wfFrom, Bool.and_eq_true, decide_eq_true_eq]
        exact ⟨h.1, ih h.2 (by omega)⟩

/-- Poisoning a register keeps the canonical form. -/
theorem Memory.wfFrom_poison {m : Memory} {i : Nat} (a : Nat) (h : Memory.wfFrom i m = true) :
    Memory.wfFrom i (m.poison a) = true := by
  induction m generalizing i with
  | nil => rfl
  | cons e rest ih =>
    simp only [Memory.wfFrom, Bool.and_eq_true, decide_eq_true_eq] at h
    unfold Memory.poison
    split
    · exact Memory.wfFrom_mono h.2 (by omega)
    · simp only [Memory.wfFrom, Bool.and_eq_true, decide_eq_true_eq]
      exact ⟨h.1, ih h.2⟩

theorem Memory.wf_write {m : Memory} (a : Byte) (v : Word) (h : m.wf = true) : (m.write a.toNat v).wf = true :=
  Memory.wfFrom_write v h (Nat.zero_le _) a.isLt

theorem Memory.wf_poison {m : Memory} (a : Nat) (h : m.wf = true) : (m.poison a).wf = true :=
  Memory.wfFrom_poison a h

/-- Equal contents are equal lists: two canonical lists that read alike are the same. -/
theorem Memory.eq_of_read_eq {m n : Memory} {i : Nat} (hm : Memory.wfFrom i m = true) (hn : Memory.wfFrom i n = true)
    (h : ∀ a, m.read a = n.read a) : m = n := by
  induction m generalizing n i with
  | nil =>
    cases n with
    | nil => rfl
    | cons e rest => simpa [Memory.read] using h e.1
  | cons e rest ih =>
    cases n with
    | nil => simpa [Memory.read] using h e.1
    | cons f rest' =>
      simp only [Memory.wfFrom, Bool.and_eq_true, decide_eq_true_eq] at hm hn
      have hef : e.1 = f.1 := by
        rcases Nat.lt_trichotomy e.1 f.1 with hlt | heq | hgt
        · have h1 := h e.1
          have h2 := Memory.read_eq_none_of_wfFrom hn.2 (show e.1 < f.1 + 1 by omega)
          simp [Memory.read, h2, Nat.ne_of_lt hlt] at h1
        · exact heq
        · have h1 := h f.1
          have h2 := Memory.read_eq_none_of_wfFrom hm.2 (show f.1 < e.1 + 1 by omega)
          simp [Memory.read, h2, Nat.ne_of_lt hgt] at h1
      have hv : e.2 = f.2 := by simpa [Memory.read, hef] using h e.1
      have htail : rest = rest' := by
        refine ih hm.2 (hef ▸ hn.2) fun a => ?_
        by_cases ha : a = e.1
        · rw [ha, Memory.read_eq_none_of_wfFrom hm.2 (Nat.lt_succ_self _),
            Memory.read_eq_none_of_wfFrom hn.2 (by omega)]
        · simpa [Memory.read, ha, hef ▸ ha] using h a
      rw [htail, Prod.ext hef hv]

/-! ## The mock device -/

@[simp] theorem MockDevice.disturb_wf {d : MockDevice} (h : d.reg.wf = true) : d.disturb.reg.wf = true := by
  unfold MockDevice.disturb
  split
  · exact h
  · exact Memory.wf_poison _ h

theorem MockDevice.program_wf {d : MockDevice} (ra : Byte) (v : Word) (h : d.reg.wf = true) :
    (d.program ra v).reg.wf = true := by
  unfold MockDevice.program
  split
  · exact Memory.wf_write _ _ h
  · split
    · exact Memory.wf_write _ _ h
    · exact Memory.wf_poison _ h

theorem MockDevice.acceptWrite_wf {d : MockDevice} (p : Params) (ra : Byte) (v : Word) (h : d.reg.wf = true) :
    (d.acceptWrite p ra v).reg.wf = true := by
  unfold MockDevice.acceptWrite
  dsimp only
  split
  · exact MockDevice.program_wf _ _ (MockDevice.disturb_wf h)
  · exact MockDevice.disturb_wf h

/-- Every operation of the mock keeps its registers in canonical form. -/
theorem MockDevice.respond_wf {d : MockDevice} (p : Params) (q : BusQuery) (h : d.reg.wf = true) :
    (d.respond p q).2.reg.wf = true := by
  cases q <;> simp only [MockDevice.respond] <;> repeat' split
  all_goals first
    | exact h
    | exact MockDevice.acceptWrite_wf _ _ _ h
    | exact MockDevice.disturb_wf h

theorem MockDevice.wait_wf {d : MockDevice} (p : Params) (t : Nat) (h : d.reg.wf = true) :
    (d.wait p t).reg.wf = true := by
  unfold MockDevice.wait
  split <;> exact h

end Sys2Proof.Machine
end

