-- ==== Sys2Proof/Laws/State.lean ====
section
/-! SUPPORT. One lemma per field per update of the state, so that no proof unfolds a record update. -/

namespace Sys2Proof.Machine

variable (s : State)

/-! ## issue -/

@[simp] theorem issue_devAddr (q : BusQuery) : (s.issue q).devAddr = s.devAddr := rfl
@[simp] theorem issue_bound (q : BusQuery) : (s.issue q).bound = s.bound := rfl
@[simp] theorem issue_crcAcc (q : BusQuery) : (s.issue q).crcAcc = s.crcAcc := rfl
@[simp] theorem issue_history (q : BusQuery) : (s.issue q).history = s.history ++ [busEvent q (s.answer q)] := rfl
@[simp] theorem issue_faultMark (q : BusQuery) : (s.issue q).faultMark = s.faultMark := rfl
@[simp] theorem issue_responses (q : BusQuery) : (s.issue q).responses = s.responses := rfl
@[simp] theorem issue_port (q : BusQuery) : (s.issue q).port = s.port := rfl
@[simp] theorem issue_params (q : BusQuery) : (s.issue q).params = s.params := rfl
@[simp] theorem issue_bus (q : BusQuery) : (s.issue q).bus = s.bus.advance s.params q := rfl

/-! ## waitSettle -/

@[simp] theorem waitSettle_devAddr : (waitSettle s).devAddr = s.devAddr := rfl
@[simp] theorem waitSettle_bound : (waitSettle s).bound = s.bound := rfl
@[simp] theorem waitSettle_crcAcc : (waitSettle s).crcAcc = s.crcAcc := rfl
@[simp] theorem waitSettle_history : (waitSettle s).history = s.history ++ [.wait s.params.tEE] := rfl
@[simp] theorem waitSettle_faultMark : (waitSettle s).faultMark = s.faultMark := rfl
@[simp] theorem waitSettle_responses : (waitSettle s).responses = s.responses := rfl
@[simp] theorem waitSettle_port : (waitSettle s).port = s.port := rfl
@[simp] theorem waitSettle_params : (waitSettle s).params = s.params := rfl
@[simp] theorem waitSettle_bus : (waitSettle s).bus = s.bus.wait s.params s.params.tEE := rfl

/-! ## setDevAddr -/

@[simp] theorem setDevAddr_devAddr (a7 : DevAddr) : (s.setDevAddr a7).devAddr = a7 := rfl
@[simp] theorem setDevAddr_bound (a7 : DevAddr) : (s.setDevAddr a7).bound = s.bound := rfl
@[simp] theorem setDevAddr_crcAcc (a7 : DevAddr) : (s.setDevAddr a7).crcAcc = s.crcAcc := rfl
@[simp] theorem setDevAddr_history (a7 : DevAddr) : (s.setDevAddr a7).history = s.history := rfl
@[simp] theorem setDevAddr_faultMark (a7 : DevAddr) : (s.setDevAddr a7).faultMark = s.faultMark := rfl
@[simp] theorem setDevAddr_responses (a7 : DevAddr) : (s.setDevAddr a7).responses = s.responses := rfl
@[simp] theorem setDevAddr_port (a7 : DevAddr) : (s.setDevAddr a7).port = s.port := rfl
@[simp] theorem setDevAddr_params (a7 : DevAddr) : (s.setDevAddr a7).params = s.params := rfl
@[simp] theorem setDevAddr_bus (a7 : DevAddr) : (s.setDevAddr a7).bus = s.bus := rfl

/-! ## setBound -/

@[simp] theorem setBound_devAddr (b : Bool) : (s.setBound b).devAddr = s.devAddr := rfl
@[simp] theorem setBound_bound (b : Bool) : (s.setBound b).bound = b := rfl
@[simp] theorem setBound_crcAcc (b : Bool) : (s.setBound b).crcAcc = s.crcAcc := rfl
@[simp] theorem setBound_history (b : Bool) : (s.setBound b).history = s.history := rfl
@[simp] theorem setBound_faultMark (b : Bool) : (s.setBound b).faultMark = s.faultMark := rfl
@[simp] theorem setBound_responses (b : Bool) : (s.setBound b).responses = s.responses := rfl
@[simp] theorem setBound_port (b : Bool) : (s.setBound b).port = s.port := rfl
@[simp] theorem setBound_params (b : Bool) : (s.setBound b).params = s.params := rfl
@[simp] theorem setBound_bus (b : Bool) : (s.setBound b).bus = s.bus := rfl

/-! ## setCrcAcc -/

@[simp] theorem setCrcAcc_devAddr (c : Byte) : (s.setCrcAcc c).devAddr = s.devAddr := rfl
@[simp] theorem setCrcAcc_bound (c : Byte) : (s.setCrcAcc c).bound = s.bound := rfl
@[simp] theorem setCrcAcc_crcAcc (c : Byte) : (s.setCrcAcc c).crcAcc = c := rfl
@[simp] theorem setCrcAcc_history (c : Byte) : (s.setCrcAcc c).history = s.history := rfl
@[simp] theorem setCrcAcc_faultMark (c : Byte) : (s.setCrcAcc c).faultMark = s.faultMark := rfl
@[simp] theorem setCrcAcc_responses (c : Byte) : (s.setCrcAcc c).responses = s.responses := rfl
@[simp] theorem setCrcAcc_port (c : Byte) : (s.setCrcAcc c).port = s.port := rfl
@[simp] theorem setCrcAcc_params (c : Byte) : (s.setCrcAcc c).params = s.params := rfl
@[simp] theorem setCrcAcc_bus (c : Byte) : (s.setCrcAcc c).bus = s.bus := rfl

/-! ## respond -/

@[simp] theorem respond_devAddr (st : Status) (aux : Byte) (data : Word) : (respond st aux data s).devAddr = s.devAddr := rfl
@[simp] theorem respond_bound (st : Status) (aux : Byte) (data : Word) : (respond st aux data s).bound = s.bound := rfl
@[simp] theorem respond_crcAcc (st : Status) (aux : Byte) (data : Word) : (respond st aux data s).crcAcc = s.crcAcc := rfl
@[simp] theorem respond_history (st : Status) (aux : Byte) (data : Word) : (respond st aux data s).history = s.history := rfl
@[simp] theorem respond_faultMark (st : Status) (aux : Byte) (data : Word) : (respond st aux data s).faultMark = s.faultMark := rfl
@[simp] theorem respond_responses (st : Status) (aux : Byte) (data : Word) : (respond st aux data s).responses = s.responses ++ [responseWord st aux data] := rfl
@[simp] theorem respond_port (st : Status) (aux : Byte) (data : Word) : (respond st aux data s).port = s.port := rfl
@[simp] theorem respond_params (st : Status) (aux : Byte) (data : Word) : (respond st aux data s).params = s.params := rfl
@[simp] theorem respond_bus (st : Status) (aux : Byte) (data : Word) : (respond st aux data s).bus = s.bus := rfl

/-! ## takeFault -/

@[simp] theorem takeFault_devAddr (st : Status) : (takeFault st s).devAddr = s.devAddr := rfl
@[simp] theorem takeFault_bound (st : Status) : (takeFault st s).bound = s.bound := rfl
@[simp] theorem takeFault_crcAcc (st : Status) : (takeFault st s).crcAcc = s.crcAcc := rfl
@[simp] theorem takeFault_history (st : Status) : (takeFault st s).history = s.history := rfl
@[simp] theorem takeFault_faultMark (st : Status) : (takeFault st s).faultMark = true := rfl
@[simp] theorem takeFault_responses (st : Status) : (takeFault st s).responses = s.responses ++ [responseWord st 0x00#8 0x0000#16] := rfl
@[simp] theorem takeFault_port (st : Status) : (takeFault st s).port = s.port := rfl
@[simp] theorem takeFault_params (st : Status) : (takeFault st s).params = s.params := rfl
@[simp] theorem takeFault_bus (st : Status) : (takeFault st s).bus = s.bus := rfl

/-! ## reset -/

variable (p : Params) (a7 : DevAddr) (bus : Bus) (port : List CommandWord)

@[simp] theorem resetOf_devAddr : (State.resetOf p a7 bus port).devAddr = a7 := rfl
@[simp] theorem resetOf_bound : (State.resetOf p a7 bus port).bound = false := rfl
@[simp] theorem resetOf_crcAcc : (State.resetOf p a7 bus port).crcAcc = 0x00#8 := rfl
@[simp] theorem resetOf_history : (State.resetOf p a7 bus port).history = [] := rfl
@[simp] theorem resetOf_faultMark : (State.resetOf p a7 bus port).faultMark = false := rfl
@[simp] theorem resetOf_responses : (State.resetOf p a7 bus port).responses = [] := rfl
@[simp] theorem resetOf_port : (State.resetOf p a7 bus port).port = port := rfl
@[simp] theorem resetOf_params : (State.resetOf p a7 bus port).params = p := rfl
@[simp] theorem resetOf_bus : (State.resetOf p a7 bus port).bus = bus := rfl

end Sys2Proof.Machine
end

