-- ==== Sys2Proof/Laws/Ops.lean ====
section
/-! SUPPORT. What each shared operation can do, said once. -/

namespace Sys2Proof.Machine

variable (s : State)

/-! ## Checks before the pseudocode -/

theorem whenBound_of_bound {body : State → State} (h : s.bound = true) : whenBound body s = body s := by
  simp [whenBound, h]

theorem whenBound_of_unbound {body : State → State} (h : s.bound = false) :
    whenBound body s = takeFault .notBound s := by
  simp [whenBound, h]

theorem whenEeprom_of_mem {body : State → State} {ra : Byte} (h : ra ∈ s.params.eepromRegs) :
    whenEeprom ra body s = body s := by
  simp [whenEeprom, isEeprom, h]

theorem whenEeprom_of_notMem {body : State → State} {ra : Byte} (h : ra ∉ s.params.eepromRegs) :
    whenEeprom ra body s = takeFault .illegal s := by
  simp [whenEeprom, isEeprom, h]

theorem whenValid_true {body : State → State} : whenValid true body s = body s := rfl

theorem whenValid_false {body : State → State} :
    whenValid false body s = respond .ignored 0x00#8 0x0000#16 s := rfl

/-- A transactor command either runs its body, bound, or is answered NOT_BOUND. -/
theorem whenBound_cases (body : State → State) :
    (s.bound = true ∧ whenBound body s = body s) ∨
      (s.bound = false ∧ whenBound body s = takeFault .notBound s) := by
  cases h : s.bound
  · exact .inr ⟨rfl, whenBound_of_unbound s h⟩
  · exact .inl ⟨rfl, whenBound_of_bound s h⟩

/-- A write either names an EEPROM register or is answered ILLEGAL. -/
theorem whenEeprom_cases (ra : Byte) (body : State → State) :
    (ra ∈ s.params.eepromRegs ∧ whenEeprom ra body s = body s) ∨
      (ra ∉ s.params.eepromRegs ∧ whenEeprom ra body s = takeFault .illegal s) := by
  by_cases h : ra ∈ s.params.eepromRegs
  · exact .inl ⟨h, whenEeprom_of_mem s h⟩
  · exact .inr ⟨h, whenEeprom_of_notMem s h⟩

/-- A setter either runs its body or is IGNORED. -/
theorem whenValid_cases (valid : Bool) (body : State → State) :
    (valid = true ∧ whenValid valid body s = body s) ∨
      (valid = false ∧ whenValid valid body s = respond .ignored 0x00#8 0x0000#16 s) := by
  cases valid
  · exact .inr ⟨rfl, rfl⟩
  · exact .inl ⟨rfl, rfl⟩

/-! ## Bus primitives -/

@[simp] theorem busProbe_snd : (busProbe s).2 = s.issue (.probe s.devAddr) := rfl

@[simp] theorem busProbe_fst : (busProbe s).1 = (s.answer (.probe s.devAddr)).ok := rfl

@[simp] theorem busWrite16_snd (ra : Byte) (v : Word) :
    (busWrite16 ra v s).2 = s.issue (.write s.devAddr (writePayload s.devAddr ra v)) := rfl

@[simp] theorem busWrite16_fst (ra : Byte) (v : Word) :
    (busWrite16 ra v s).1 = (s.answer (.write s.devAddr (writePayload s.devAddr ra v))).ok := rfl

@[simp] theorem busRead16_snd (ra : Byte) :
    (busRead16 ra s).2 = s.issue (.writeRead s.devAddr [ra] readReplyLen) := rfl

@[simp] theorem busRead16_fst (ra : Byte) :
    (busRead16 ra s).1 = s.answer (.writeRead s.devAddr [ra] readReplyLen) := rfl

@[simp] theorem busEvent_probe (a7 : DevAddr) (a : BusAnswer) : busEvent (.probe a7) a = .probe a7 a.ok := rfl

@[simp] theorem busEvent_write (a7 : DevAddr) (w : List Byte) (a : BusAnswer) :
    busEvent (.write a7 w) a = .write a7 w a.ok := rfl

@[simp] theorem busEvent_writeRead (a7 : DevAddr) (w : List Byte) (m : Nat) (a : BusAnswer) :
    busEvent (.writeRead a7 w m) a = .writeRead a7 w m a.ok (if a.ok then [a.r0, a.r1, a.r2] else []) := rfl

/-- A scripted answer is the one given. -/
@[simp] theorem answer_script_cons (p : Params) (h : List BusEvent) (q : BusQuery) (a : BusAnswer)
    (script : List BusAnswer) : Bus.answer p h q (.oracle (a :: script)) = a := rfl

/-! ## The erase-before-write sequence (R80) -/

/-- `ee_sequence` appends erase, wait, write, wait, whatever the bus answers, and changes nothing but history and
bus. -/
theorem eeSequence_snd (ra : Byte) (v : Word) :
    (eeSequence ra v s).2 = { s with
      history := s.history ++ [.write s.devAddr (writePayload s.devAddr ra 0x0000#16) (busWrite16 ra 0x0000#16 s).1,
        .wait s.params.tEE,
        .write s.devAddr (writePayload s.devAddr ra v) (busWrite16 ra v (waitSettle (busWrite16 ra 0x0000#16 s).2)).1,
        .wait s.params.tEE]
      bus := (eeSequence ra v s).2.bus } := by
  simp [eeSequence, waitSettle, State.issue]

/-- EEWRITE's body: the four events of `ee_sequence` and one response, OK or BUS_FAIL. -/
theorem eeWriteBody_eq (ra : Byte) (v : Word) :
    ∃ ok1 ok2 bus, eeWriteBody ra v s = { s with
      history := s.history ++ [.write s.devAddr (writePayload s.devAddr ra 0x0000#16) ok1, .wait s.params.tEE,
        .write s.devAddr (writePayload s.devAddr ra v) ok2, .wait s.params.tEE]
      bus := bus
      responses := s.responses ++ [responseWord (busStatus (ok1 && ok2)) 0x00#8 0x0000#16] } := by
  refine ⟨(busWrite16 ra 0x0000#16 s).1, (busWrite16 ra v (waitSettle (busWrite16 ra 0x0000#16 s).2)).1,
    (eeSequence ra v s).2.bus, ?_⟩
  have h : eeWriteBody ra v s = respond (busStatus (eeSequence ra v s).1) 0x00#8 0x0000#16 (eeSequence ra v s).2 := rfl
  rw [h]
  conv_lhs => rw [eeSequence_snd]
  rfl

/-- The read-modify-write of a config field: one read; then BUS_FAIL (the read failed), SKIPPED (it gave 0, or the
field holds the request), or EEWRITE's body on the merged value. -/
theorem updateField_cases (mask request : Word) :
    let a := s.answer (.writeRead s.devAddr [s.params.regConfig] readReplyLen)
    let s1 := s.issue (.writeRead s.devAddr [s.params.regConfig] readReplyLen)
    (readValue a = 0x0000#16 ∧ a.ok = false ∧
        updateField mask request s = respond .busFail 0x00#8 0x0000#16 s1) ∨
      (readValue a = 0x0000#16 ∧ a.ok = true ∧
        updateField mask request s = respond .skipped 0x00#8 0x0000#16 s1) ∨
      (readValue a ≠ 0x0000#16 ∧ a.ok = true ∧ readValue a &&& mask = request ∧
        updateField mask request s = respond .skipped 0x00#8 0x0000#16 s1) ∨
      (readValue a ≠ 0x0000#16 ∧ a.ok = true ∧ readValue a &&& mask ≠ request ∧
        updateField mask request s =
          eeWriteBody s.params.regConfig (mergeField mask request (readValue a)) s1) := by
  intro a s1
  have hok : readValue a ≠ 0x0000#16 → a.ok = true := by
    intro h
    cases hk : a.ok
    · simp [readValue, hk, readFailValue] at h
    · rfl
  have hu : updateField mask request s =
      if readValue a = 0x0000#16 then respond (zeroReadStatus a.ok) 0x00#8 0x0000#16 s1
      else if readValue a &&& mask = request then respond .skipped 0x00#8 0x0000#16 s1
      else eeWriteBody s.params.regConfig (mergeField mask request (readValue a)) s1 := rfl
  rw [hu]
  by_cases hv : readValue a = 0x0000#16
  · rcases Bool.eq_false_or_eq_true a.ok with hk | hk
    · exact .inr (.inl ⟨hv, hk, by rw [if_pos hv, hk]; rfl⟩)
    · exact .inl ⟨hv, hk, by rw [if_pos hv, hk]; rfl⟩
  · by_cases hm : readValue a &&& mask = request
    · exact .inr (.inr (.inl ⟨hv, hok hv, hm, by rw [if_neg hv, if_pos hm]⟩))
    · exact .inr (.inr (.inr ⟨hv, hok hv, hm, by rw [if_neg hv, if_neg hm]⟩))

end Sys2Proof.Machine
end

