-- ==== Sys2Proof/Laws/Response.lean ====
section
/-! SUPPORT. The fields of a response word. -/

namespace Sys2Proof.Machine

variable (st : Status) (aux : Byte) (data : Word)

@[simp] theorem responseStatus_responseWord : responseStatus (responseWord st aux data) = st.code := by
  unfold responseStatus responseWord
  ext i hi
  grind

@[simp] theorem responseRsv_responseWord : responseRsv (responseWord st aux data) = 0#4 := by
  unfold responseRsv responseWord
  ext i hi
  grind

@[simp] theorem responseAux_responseWord : responseAux (responseWord st aux data) = aux := by
  unfold responseAux responseWord
  ext i hi
  grind

@[simp] theorem responseData_responseWord : responseData (responseWord st aux data) = data := by
  unfold responseData responseWord
  ext i hi
  grind

/-- An OK response is its `AUX` and `DATA` under a zero byte. -/
theorem responseWord_ok : responseWord .ok aux data = 0x00#8 ++ aux ++ data := rfl

/-- The response of a write: OK or BUS_FAIL, with nothing else (R62, R80). -/
theorem responseWord_busStatus (ok : Bool) :
    responseWord (busStatus ok) 0x00#8 0x0000#16 = if ok then 0x00000000#32 else 0x10000000#32 := by
  cases ok <;> rfl

/-- Every status has one of the codes 0 to 6 (R90). -/
theorem Status.code_le (st : Status) : st.code.toNat ≤ 6 := by cases st <;> decide

/-- A response is a fault exactly when its status is NOT_BOUND or ILLEGAL. -/
theorem isFaultResponse_responseWord :
    isFaultResponse (responseWord st aux data) = (st == .notBound || st == .illegal) := by
  unfold isFaultResponse
  rw [responseStatus_responseWord]
  cases st <;> decide

end Sys2Proof.Machine
end

