-- ==== Sys2Proof/Laws/Exec.lean ====
section
/-! SUPPORT. What a step and a command can do, said once: the inversion lemmas that invariants are derived from. -/

namespace Sys2Proof.Machine

variable (s : State)

/-! ## The step -/

/-- A step either finds no command, runs the decoded command, or answers an illegal word. -/
theorem step_cases {t : State} (h : step s = .next t) :
    (s.port = [] ∧ t = s) ∨
      ∃ w rest, s.port = w :: rest ∧
        ((∃ i, decode w = .ok i ∧ exec i { s with port := rest } = .next t) ∨
          (∃ e, decode w = .error e ∧ t = takeFault .illegal { s with port := rest })) := by
  unfold step fetch at h
  cases hp : s.port with
  | nil =>
    rw [hp] at h
    cases h
    exact .inl ⟨rfl, rfl⟩
  | cons w rest =>
    rw [hp] at h
    refine .inr ⟨w, rest, rfl, ?_⟩
    cases hd : decode w with
    | ok i => exact .inl ⟨i, rfl, by simpa [hd] using h⟩
    | error e =>
      simp only [hd, illegalWord] at h
      cases h
      exact .inr ⟨e, rfl, rfl⟩

/-! ## Commands -/

/-- The event of a read of `ra` answered by `a`. -/
def readEvent (ra : Byte) (a : BusAnswer) : BusEvent := busEvent (.writeRead s.devAddr [ra] readReplyLen) a

/-- The event of a write of `v` to `ra`. -/
def writeEvent (ra : Byte) (v : Word) (ok : Bool) : BusEvent :=
  .write s.devAddr (writePayload s.devAddr ra v) ok

/-- The four events of `ee_sequence(ra, v)` (R80). -/
def erasedWriteEvents (ra : Byte) (v : Word) (ok1 ok2 : Bool) : List BusEvent :=
  [writeEvent s ra 0x0000#16 ok1, .wait s.params.tEE, writeEvent s ra v ok2, .wait s.params.tEE]

/-- The bus events a command other than INIT can append. -/
inductive CommandEvents (i : Instr) : List BusEvent → Prop where
  | none : CommandEvents i []
  | read (ra : Byte) (a : BusAnswer) : CommandEvents i [readEvent s ra a]
  | write (ra : Byte) (v : Word) (ok : Bool) (target : ra ∈ s.params.eepromRegs) (isWrite : i = .write16 ra v) :
      CommandEvents i [writeEvent s ra v ok]
  | erasedWrite (ra : Byte) (v : Word) (ok1 ok2 : Bool) (target : ra ∈ s.params.eepromRegs) :
      CommandEvents i (erasedWriteEvents s ra v ok1 ok2)
  | update (a : BusAnswer) (v : Word) (ok1 ok2 : Bool) :
      CommandEvents i (readEvent s s.params.regConfig a :: erasedWriteEvents s s.params.regConfig v ok1 ok2)

/-- The status is a fault (R90). -/
def Status.isFault (st : Status) : Bool := st == .notBound || st == .illegal

@[simp] theorem busStatus_isFault (ok : Bool) : (busStatus ok).isFault = false := by cases ok <;> rfl

/-- What a command that writes no register does: it appends bus events, none when unbound, and gives one response; the
fault mark is set exactly by a fault. -/
def Transacted (i : Instr) (t : State) : Prop :=
  ∃ es bus st aux data,
    t = { s with
      history := s.history ++ es
      bus := bus
      responses := s.responses ++ [responseWord st aux data]
      faultMark := s.faultMark || st.isFault } ∧
    (s.bound = false → es = []) ∧ CommandEvents s i es

variable {i : Instr}

theorem transacted_takeFault {st : Status} (h : st.isFault = true) : Transacted s i (takeFault st s) :=
  ⟨[], s.bus, st, 0x00#8, 0x0000#16, by simp [takeFault, respond, h], fun _ => rfl, .none⟩

theorem transacted_respond {st : Status} {aux : Byte} {data : Word} (h : st.isFault = false) :
    Transacted s i (respond st aux data s) :=
  ⟨[], s.bus, st, aux, data, by simp [respond, h], fun _ => rfl, .none⟩

theorem transacted_read {ra : Byte} {st : Status} {aux : Byte} {data : Word} (hb : s.bound = true)
    (h : st.isFault = false) :
    Transacted s i (respond st aux data (s.issue (.writeRead s.devAddr [ra] readReplyLen))) :=
  ⟨[readEvent s ra (s.answer (.writeRead s.devAddr [ra] readReplyLen))],
    (s.issue (.writeRead s.devAddr [ra] readReplyLen)).bus, st, aux, data,
    by simp [respond, h, State.issue, readEvent], by simp [hb], .read ra _⟩

theorem transacted_write {ra : Byte} {v : Word} (hb : s.bound = true) (hr : ra ∈ s.params.eepromRegs) :
    Transacted s (.write16 ra v) (write16Body ra v s) :=
  ⟨[writeEvent s ra v (busWrite16 ra v s).1], (busWrite16 ra v s).2.bus, busStatus (busWrite16 ra v s).1, 0x00#8,
    0x0000#16, by simp [write16Body, respond, State.issue, writeEvent], by simp [hb], .write ra v _ hr rfl⟩

theorem transacted_eeWriteBody {ra : Byte} {v : Word} (hb : s.bound = true) (hr : ra ∈ s.params.eepromRegs) :
    Transacted s i (eeWriteBody ra v s) := by
  obtain ⟨ok1, ok2, bus, h⟩ := eeWriteBody_eq s ra v
  rw [h]
  exact ⟨erasedWriteEvents s ra v ok1 ok2, bus, busStatus (ok1 && ok2), 0x00#8, 0x0000#16,
    by simp [erasedWriteEvents, writeEvent], by simp [hb], .erasedWrite ra v ok1 ok2 hr⟩

theorem transacted_updateField {mask request : Word} (hb : s.bound = true) :
    Transacted s i (updateField mask request s) := by
  rcases updateField_cases s mask request with ⟨-, -, h⟩ | ⟨-, -, h⟩ | ⟨-, -, -, h⟩ | ⟨-, -, -, h⟩
  · exact h ▸ transacted_read s hb rfl
  · exact h ▸ transacted_read s hb rfl
  · exact h ▸ transacted_read s hb rfl
  · generalize mergeField mask request (readValue (s.answer (.writeRead s.devAddr [s.params.regConfig] readReplyLen))) =
      n at h
    obtain ⟨ok1, ok2, bus, h'⟩ := eeWriteBody_eq (s.issue (.writeRead s.devAddr [s.params.regConfig] readReplyLen))
      s.params.regConfig n
    rw [h, h']
    refine ⟨readEvent s s.params.regConfig (s.answer (.writeRead s.devAddr [s.params.regConfig] readReplyLen)) ::
      erasedWriteEvents s s.params.regConfig n ok1 ok2, bus, busStatus (ok1 && ok2), 0x00#8, 0x0000#16, ?_,
      by simp [hb], .update _ n ok1 ok2⟩
    simp [State.issue, readEvent, erasedWriteEvents, writeEvent]

theorem transacted_whenBound {body : State → State} (h : s.bound = true → Transacted s i (body s)) :
    Transacted s i (whenBound body s) := by
  rcases whenBound_cases s body with ⟨hb, e⟩ | ⟨-, e⟩
  · exact e ▸ h hb
  · exact e ▸ transacted_takeFault s rfl

theorem transacted_whenEeprom {ra : Byte} {body : State → State}
    (h : ra ∈ s.params.eepromRegs → Transacted s i (body s)) : Transacted s i (whenEeprom ra body s) := by
  rcases whenEeprom_cases s ra body with ⟨hr, e⟩ | ⟨-, e⟩
  · exact e ▸ h hr
  · exact e ▸ transacted_takeFault s rfl

theorem transacted_whenValid {valid : Bool} {body : State → State} (h : Transacted s i (body s)) :
    Transacted s i (whenValid valid body s) := by
  cases valid
  · exact transacted_respond s rfl
  · exact h

/-- INIT (R60): `DEV_ADDR` and `BOUND`, one probe event, one response that is no fault. -/
theorem exec_init_cases {a7 : DevAddr} {t : State} (h : exec (.init a7) s = .next t) :
    ∃ present bus st data, st.isFault = false ∧ t = { s with
      devAddr := a7
      bound := present
      history := s.history ++ [.probe a7 present]
      bus := bus
      responses := s.responses ++ [responseWord st 0x00#8 data] } := by
  cases h
  obtain ⟨st, data, hf, he⟩ : ∃ st data, st.isFault = false ∧
      ∀ u, initAnswer (busProbe (s.setDevAddr a7)).1 u = respond st 0x00#8 data u := by
    cases (busProbe (s.setDevAddr a7)).1
    · exact ⟨.noDevice, 0x0000#16, rfl, fun _ => rfl⟩
    · exact ⟨.ok, 0x0001#16, rfl, fun _ => rfl⟩
  exact ⟨(busProbe (s.setDevAddr a7)).1, (busProbe (s.setDevAddr a7)).2.bus, st, data, hf, by rw [he]; rfl⟩

/-- Every command but INIT, CRC_CLEAR and CRC_UPDATE writes no register. -/
theorem exec_transacted {t : State} (h0 : ∀ a7, i ≠ .init a7) (h1 : i ≠ .crcClear) (h2 : ∀ b, i ≠ .crcUpdate b)
    (h : exec i s = .next t) : Transacted s i t := by
  cases i with
  | init a7 => exact absurd rfl (h0 a7)
  | crcClear => exact absurd rfl h1
  | crcUpdate b => exact absurd rfl (h2 b)
  | crcCheck p => cases h; exact transacted_respond s rfl
  | read16 ra => cases h; exact transacted_whenBound s fun hb => transacted_read s hb (by simp)
  | write16 ra v =>
    cases h
    exact transacted_whenEeprom s fun hr => transacted_whenBound s fun hb => transacted_write s hb hr
  | eeWrite ra v =>
    cases h
    exact transacted_whenEeprom s fun hr => transacted_whenBound s fun hb => transacted_eeWriteBody s hb hr
  | readNoise => cases h; exact transacted_whenBound s fun hb => transacted_read s hb (by simp)
  | readSpike => cases h; exact transacted_whenBound s fun hb => transacted_read s hb (by simp)
  | writeNoise m =>
    cases h
    exact transacted_whenBound s fun hb => transacted_whenValid s (transacted_updateField s hb)
  | writeSpike m =>
    cases h
    exact transacted_whenBound s fun hb => transacted_whenValid s (transacted_updateField s hb)
  | writeFilter noise spike =>
    cases h
    exact transacted_whenBound s fun hb => transacted_whenValid s (transacted_updateField s hb)

end Sys2Proof.Machine
end

