-- ==== Sys2Proof/Laws/Mock.lean ====
section
/-! SUPPORT. The mock device round trip: the source's property (95_test_vectors.md L1-2, corrected by C3) that an EEPROM
register written with the erase-before-write sequence reads back the value, whatever it held before. It is a fact about
the test fixture, not a claim about the block (D26). -/

namespace Sys2Proof.Machine

@[simp] theorem assemble_lo_hi (v : Word) : assemble (lo v) (hi v) = v := by
  unfold assemble lo hi
  ext i h
  simp only [BitVec.getElem_or, BitVec.getElem_setWidth, BitVec.getElem_shiftLeft, BitVec.getLsbD_extractLsb']
  by_cases h8 : i < 8 <;> grind

variable {p : Params} {d : MockDevice} {a7 : DevAddr} {ra : Byte}

/-- A write the mock accepts: no injected failure, the device reached. -/
theorem MockDevice.respond_write (v : Word) (hr : d.reached a7 = true) (hf : d.failNext = 0) :
    d.respond p (.write a7 (writePayload a7 ra v)) = (some (plainAnswer true), d.acceptWrite p ra v) := by
  simp [MockDevice.respond, writePayload, hr, hf]

theorem MockDevice.acceptWrite_reached (v : Word) : (d.acceptWrite p ra v).reached a7 = d.reached a7 := by
  unfold MockDevice.acceptWrite MockDevice.program MockDevice.disturb
  grind [MockDevice.reached]

theorem MockDevice.acceptWrite_failNext (v : Word) : (d.acceptWrite p ra v).failNext = d.failNext := by
  unfold MockDevice.acceptWrite MockDevice.program MockDevice.disturb
  grind

/-- The erase of an EEPROM register leaves it at 0. -/
theorem MockDevice.acceptWrite_erase (he : isEeprom p ra = true) :
    (d.acceptWrite p ra 0x0000#16).reg.read ra.toNat = some 0x0000#16 := by
  simp [MockDevice.acceptWrite, he, MockDevice.program, Memory.read_write_same]

/-- A write onto an erased register, with nothing settling, leaves it at the value. -/
theorem MockDevice.acceptWrite_erased (v : Word) (he : isEeprom p ra = true) (hs : d.settling = none)
    (h0 : d.reg.read ra.toNat = some 0x0000#16) : (d.acceptWrite p ra v).reg.read ra.toNat = some v := by
  have hd : d.disturb = d := by simp [MockDevice.disturb, hs]
  simp only [MockDevice.acceptWrite, hd, he, if_true, MockDevice.program, h0]
  split
  · rename_i hv
    simp [hv, Memory.read_write_same]
  · simp [Memory.read_write_same]

/-- The mock after the four steps of `ee_sequence(ra, v)`. -/
def MockDevice.afterErasedWrite (p : Params) (a7 : DevAddr) (ra : Byte) (v : Word) (d : MockDevice) : MockDevice :=
  let d1 := (d.respond p (.write a7 (writePayload a7 ra 0x0000#16))).2.wait p p.tEE
  (d1.respond p (.write a7 (writePayload a7 ra v))).2.wait p p.tEE

/-- The round trip: after the sequence the register reads back the value, and nothing is settling. -/
theorem MockDevice.read_afterErasedWrite (v : Word) (hr : d.reached a7 = true) (hf : d.failNext = 0)
    (he : isEeprom p ra = true) :
    (d.afterErasedWrite p a7 ra v).respond p (.writeRead a7 [ra] readReplyLen) =
      (some ⟨true, lo v, hi v, mockReadPec a7 ra v⟩, d.afterErasedWrite p a7 ra v) := by
  have hw : ∀ e : MockDevice, e.wait p p.tEE = { e with settling := none } := fun e => by simp [MockDevice.wait]
  unfold MockDevice.afterErasedWrite
  simp only [respond_write _ hr hf, hw]
  have hr1 : ({ d.acceptWrite p ra 0x0000#16 with settling := none } : MockDevice).reached a7 = true := by
    have := acceptWrite_reached (p := p) (ra := ra) (d := d) (a7 := a7) 0x0000#16
    simpa [MockDevice.reached, hr] using this.trans hr
  have hf1 : ({ d.acceptWrite p ra 0x0000#16 with settling := none } : MockDevice).failNext = 0 := by
    simpa using (acceptWrite_failNext (p := p) (ra := ra) (d := d) 0x0000#16).trans hf
  rw [respond_write v hr1 hf1]
  have h2 := acceptWrite_erased (p := p) (ra := ra) (d := { d.acceptWrite p ra 0x0000#16 with settling := none }) v he
    rfl (acceptWrite_erase he)
  have hr2 := (acceptWrite_reached (p := p) (ra := ra) (d := { d.acceptWrite p ra 0x0000#16 with settling := none })
    (a7 := a7) v).trans hr1
  have hf2 := (acceptWrite_failNext (p := p) (ra := ra)
    (d := { d.acceptWrite p ra 0x0000#16 with settling := none }) v).trans hf1
  simp only [MockDevice.reached] at hr2
  simp [MockDevice.respond, MockDevice.reached, hf2, hr2, h2]

end Sys2Proof.Machine
end

