-- ==== Sys2Proof/Laws/PerInstr.lean ====
section
/-! SUPPORT. Statements about every command as syntax. -/

namespace Sys2Proof.Laws

/-- The command's word fits its own row of the opcode table (R43). -/
def FitsOwnRow.Statement (i : Instr) : Prop :=
  ∀ row ∈ opcodeTable, row.mnemonic = i.mnemonic → encode i &&& row.mask = row.pattern

namespace FitsOwnRow

/-- No two rows of the table have one mnemonic. -/
theorem row_unique : ∀ r ∈ opcodeTable, ∀ r' ∈ opcodeTable, r.mnemonic = r'.mnemonic → r = r' := by decide

/-- The statement about `i` from the one row of its mnemonic. -/
theorem of_row {i : Instr} (row : TableRow) (hrow : row ∈ opcodeTable) (hm : row.mnemonic = i.mnemonic)
    (h : encode i &&& row.mask = row.pattern) : Statement i := by
  intro r hr hri
  rw [row_unique r hr row hrow (hri.trans hm.symm)]
  exact h

theorem init (a7 : DevAddr) : Statement (.init a7) := by
  refine of_row ⟨"INIT", 0x100000000000#48, 0xFF80FFFFFFFF#48⟩ (by decide) rfl ?_
  have hbit : a7.setWidth 8 &&& 0x80#8 = 0x00#8 := by
    revert a7
    decide
  rw [and_eq_iff_fields]
  simp only [encode, fieldOP_packWord, fieldRSV_packWord, fieldR_packWord, fieldA_packWord, fieldB_packWord]
  exact ⟨by decide, by decide, hbit, by decide, by decide⟩

theorem crcClear : Statement .crcClear :=
  of_row ⟨"CRC_CLEAR", 0x200000000000#48, 0xFFFFFFFFFFFF#48⟩ (by decide) rfl (by decide)

theorem crcUpdate (b : Byte) : Statement (.crcUpdate b) :=
  of_row ⟨"CRC_UPDATE", 0x300000000000#48, 0xFF00FFFFFFFF#48⟩ (by decide) rfl
    (by rw [and_eq_iff_fields]; simp [encode]; simp [fieldOP, fieldRSV, fieldR, fieldA, fieldB])

theorem crcCheck (p : Byte) : Statement (.crcCheck p) :=
  of_row ⟨"CRC_CHECK", 0x400000000000#48, 0xFF00FFFFFFFF#48⟩ (by decide) rfl
    (by rw [and_eq_iff_fields]; simp [encode]; simp [fieldOP, fieldRSV, fieldR, fieldA, fieldB])

theorem read16 (ra : Byte) : Statement (.read16 ra) :=
  of_row ⟨"READ16", 0x500000000000#48, 0xFF00FFFFFFFF#48⟩ (by decide) rfl
    (by rw [and_eq_iff_fields]; simp [encode]; simp [fieldOP, fieldRSV, fieldR, fieldA, fieldB])

theorem write16 (ra : Byte) (v : Word) : Statement (.write16 ra v) :=
  of_row ⟨"WRITE16", 0x600000000000#48, 0xFF00FFFF0000#48⟩ (by decide) rfl
    (by rw [and_eq_iff_fields]; simp [encode]; simp [fieldOP, fieldRSV, fieldR, fieldA, fieldB])

theorem eeWrite (ra : Byte) (v : Word) : Statement (.eeWrite ra v) :=
  of_row ⟨"EEWRITE", 0x700000000000#48, 0xFF00FFFF0000#48⟩ (by decide) rfl
    (by rw [and_eq_iff_fields]; simp [encode]; simp [fieldOP, fieldRSV, fieldR, fieldA, fieldB])

theorem readNoise : Statement .readNoise :=
  of_row ⟨"READ_NOISE", 0x800000000000#48, 0xFFFFFFFFFFFF#48⟩ (by decide) rfl (by decide)

theorem readSpike : Statement .readSpike :=
  of_row ⟨"READ_SPIKE", 0x900000000000#48, 0xFFFFFFFFFFFF#48⟩ (by decide) rfl (by decide)

theorem writeNoise (m : Word) : Statement (.writeNoise m) :=
  of_row ⟨"WRITE_NOISE", 0xA00000000000#48, 0xFFFFFFFF0000#48⟩ (by decide) rfl
    (by rw [and_eq_iff_fields]; simp [encode]; simp [fieldOP, fieldRSV, fieldR, fieldA, fieldB])

theorem writeSpike (m : Word) : Statement (.writeSpike m) :=
  of_row ⟨"WRITE_SPIKE", 0xB00000000000#48, 0xFFFFFFFF0000#48⟩ (by decide) rfl
    (by rw [and_eq_iff_fields]; simp [encode]; simp [fieldOP, fieldRSV, fieldR, fieldA, fieldB])

theorem writeFilter (noise spike : Word) : Statement (.writeFilter noise spike) :=
  of_row ⟨"WRITE_FILTER", 0xC00000000000#48, 0xFFFF00000000#48⟩ (by decide) rfl
    (by rw [and_eq_iff_fields]; simp [encode]; simp [fieldOP, fieldRSV, fieldR, fieldA, fieldB])

end FitsOwnRow

end Sys2Proof.Laws
end

