-- ==== Sys2Proof/Tests/Slice0.lean ====
section
/-! SUPPORT. Tests of the model against the vectors of 95_test_vectors.md and 30_encoding.md R55, the smoke tests of the
well-formedness checks, and a witness for the hypotheses of every statement. -/

namespace Sys2Proof.Tests

open Sys2Proof Sys2Proof.Machine

/-! ## Small states: the conventions of 95_test_vectors.md -/

/-- After reset, with `port` to come and the bus answering `script`. -/
def unboundState (script : List BusAnswer) (port : List CommandWord) : State :=
  State.resetOf Params.default 0x00#7 (.oracle script) port

/-- Bound at 0x5A, the bus answering `script`. -/
def boundState (script : List BusAnswer) : State :=
  { unboundState script [] with devAddr := 0x5A#7, bound := true, history := [.probe 0x5A#7 true] }

/-- A success without reply bytes, a failure, and a read of the value `{h, l}` with PEC `p`. -/
def yes : BusAnswer := plainAnswer true
def no : BusAnswer := plainAnswer false
def reads (l h p : Byte) : BusAnswer := ⟨true, l, h, p⟩

/-- The config register 0x9FB4 of the vectors. -/
def config : BusAnswer := reads 0xB4#8 0x9F#8 0x2B#8

/-- The next state of a command, for comparison. -/
def after (i : Instr) (s : State) : Option State :=
  match exec i s with
  | .next t => some t
  | .fault _ => none
  | .refused _ => none

/-- The responses and the new events of a command. -/
def seen (i : Instr) (s : State) : Option (List ResponseWord × List BusEvent) :=
  (after i s).map fun t => (t.responses, t.history.drop s.history.length)

/-! ## Well-formedness smoke: each check refuses an ill-formed term -/

theorem test_defaults_wf : Params.default.wf = true := by decide
theorem test_wait_short : { Params.default with tEE := 9 }.waitLongEnough = false := by decide
theorem test_classes_overlap :
    { Params.default with ramRegs := [0x24#8] }.classesDisjoint = false := by decide
theorem test_config_not_eeprom :
    { Params.default with regConfig := 0x07#8 }.namedRegsInEeprom = false := by decide
theorem test_noise_three_modes :
    { Params.default with noiseValid := [0x0400#16, 0x0500#16, 0x0600#16] }.noiseSetOk = false := by decide
theorem test_noise_zero_mode :
    { Params.default with noiseValid := [0x0000#16, 0x0500#16, 0x0600#16, 0x0700#16] }.noiseSetOk = false := by decide
theorem test_class_repeats :
    { Params.default with ramRegs := [0x07#8, 0x07#8] }.classesAreSets = false := by decide
theorem test_words_illegal :
    [0x10DA00000000#48, 0x115A00000000#48, 0x200000000001#48, 0x30B400000001#48, 0x502500010000#48,
      0x70241234FFFF#48, 0x800000000001#48, 0xA02500000400#48, 0x000000000000#48, 0xD00000000000#48,
      0xE00000000000#48, 0xF00000000000#48].all (fun w => !CommandWord.legal w) = true := by decide
theorem test_memory_unsorted : Memory.wf [(0x25, 0x0000#16), (0x24, 0x0000#16)] = false := by decide
theorem test_memory_wide : Memory.wf [(256, 0x0000#16)] = false := by decide

/-! ## Decoding: the words of 95_test_vectors.md section 2.2, written out from R40 and R43 -/

theorem test_decode_init : decode 0x107F00000000#48 = .ok (.init 0x7F#7) := by rfl
theorem test_decode_init_zero : decode 0x100000000000#48 = .ok (.init 0x00#7) := by rfl
theorem test_decode_crcClear : decode 0x200000000000#48 = .ok .crcClear := by rfl
theorem test_decode_crcUpdate : decode 0x30B400000000#48 = .ok (.crcUpdate 0xB4#8) := by rfl
theorem test_decode_crcCheck : decode 0x40DF00000000#48 = .ok (.crcCheck 0xDF#8) := by rfl
theorem test_decode_read16 : decode 0x50FF00000000#48 = .ok (.read16 0xFF#8) := by rfl
theorem test_decode_write16 : decode 0x602400003412#48 = .ok (.write16 0x24#8 0x3412#16) := by rfl
theorem test_decode_eeWrite : decode 0x70240000FFFF#48 = .ok (.eeWrite 0x24#8 0xFFFF#16) := by rfl
theorem test_decode_readNoise : decode 0x800000000000#48 = .ok .readNoise := by rfl
theorem test_decode_readSpike : decode 0x900000000000#48 = .ok .readSpike := by rfl
theorem test_decode_writeNoise : decode 0xA00000000400#48 = .ok (.writeNoise 0x0400#16) := by rfl
theorem test_decode_writeSpike : decode 0xB00000000009#48 = .ok (.writeSpike 0x0009#16) := by rfl
theorem test_decode_writeFilter : decode 0xC00006000003#48 = .ok (.writeFilter 0x0600#16 0x0003#16) := by rfl
theorem test_decode_reasons :
    decode 0x115A00000000#48 = .error .rsvNonzero ∧ decode 0x70241234FFFF#48 = .error .aNonzero ∧
      decode 0x30B400000001#48 = .error .bNonzero ∧ decode 0xA02500000400#48 = .error .rNonzero := by
  refine ⟨rfl, rfl, rfl, rfl⟩
theorem test_decodeTableWord : decodeTableWord 48 0x602400003412 = some (.write16 0x24#8 0x3412#16) := by rfl
theorem test_fetch_word : (step (State.reset.withFetchWord 48 0x30B400000000)) =
    .next { State.reset with crcAcc := 0x05#8, responses := [0x00050000#32] } := by rfl

/-! ## The CRC-8 generator: section 2.1 -/

theorem test_crcByte_table :
    (List.range 16).map (fun b => crcByte 0x00#8 (BitVec.ofNat 8 b)) =
      [0x00#8, 0x07#8, 0x0E#8, 0x09#8, 0x1C#8, 0x1B#8, 0x12#8, 0x15#8, 0x38#8, 0x3F#8, 0x36#8, 0x31#8, 0x24#8,
        0x23#8, 0x2A#8, 0x2D#8] := by decide
theorem test_crcByte_steps :
    crcByte 0xFF#8 0x00#8 = 0xF3#8 ∧ crcByte 0x80#8 0x00#8 = 0x89#8 ∧ crcByte 0x5A#8 0x00#8 = 0x81#8 ∧
      crcByte 0x07#8 0x07#8 = 0x00#8 := by decide
set_option maxRecDepth 8000 in
theorem test_crc8_check :
    crc8 [0x31#8, 0x32#8, 0x33#8, 0x34#8, 0x35#8, 0x36#8, 0x37#8, 0x38#8, 0x39#8] = 0xF4#8 := by decide
set_option maxRecDepth 8000 in
theorem test_crc8_frames :
    crc8 [0xB4#8, 0x24#8, 0x00#8, 0x00#8] = 0x28#8 ∧ crc8 [0xB4#8, 0x24#8, 0xFF#8, 0xFF#8] = 0x0C#8 ∧
      crc8 [0xB4#8, 0x25#8, 0xB5#8, 0xB4#8, 0x9F#8] = 0x2B#8 := by decide

/-! ## Commands: sections 2.1, 2.3 and 2.4 -/

theorem test_init_present :
    after (.init 0x5A#7) (unboundState [yes] []) =
      some { unboundState [] [] with
        devAddr := 0x5A#7, bound := true, history := [.probe 0x5A#7 true], responses := [0x00000001#32] } := by decide
theorem test_init_absent_unbinds :
    (after (.init 0x5B#7) (boundState [no])).map (fun t => (t.devAddr, t.bound, t.responses, t.faultMark)) =
      some (0x5B#7, false, [0x40000000#32], false) := by decide
theorem test_crcClear :
    (after .crcClear { boundState [] with crcAcc := 0x5C#8 }).map (fun t => (t.crcAcc, t.responses)) =
      some (0x00#8, [0x00000000#32]) := by decide
theorem test_crcUpdate :
    (after (.crcUpdate 0x24#8) { unboundState [] [] with crcAcc := 0x05#8 }).map (fun t => (t.crcAcc, t.responses)) =
      some (0xE7#8, [0x00E70000#32]) := by decide
theorem test_crcCheck_match :
    seen (.crcCheck 0x28#8) { unboundState [] [] with crcAcc := 0x28#8 } = some ([0x00280001#32], []) := by decide
theorem test_crcCheck_mismatch :
    seen (.crcCheck 0x29#8) { unboundState [] [] with crcAcc := 0x28#8 } = some ([0x00280000#32], []) := by decide
theorem test_read16 :
    seen (.read16 0x25#8) (boundState [config]) =
      some ([0x002B9FB4#32], [.writeRead 0x5A#7 [0x25#8] 3 true [0xB4#8, 0x9F#8, 0x2B#8]]) := by decide
theorem test_read16_fails :
    seen (.read16 0x25#8) (boundState [no]) =
      some ([0x10000000#32], [.writeRead 0x5A#7 [0x25#8] 3 false []]) := by decide
set_option maxRecDepth 8000 in
theorem test_write16 :
    seen (.write16 0x24#8 0x3412#16) (boundState [yes]) =
      some ([0x00000000#32], [.write 0x5A#7 [0x24#8, 0x12#8, 0x34#8, 0xD9#8] true]) := by decide
theorem test_write16_ram_illegal :
    (after (.write16 0x07#8 0x1234#16) (boundState [])).map (fun t => (t.responses, t.history, t.faultMark)) =
      some ([0x60000000#32], [.probe 0x5A#7 true], true) := by decide
set_option maxRecDepth 8000 in
theorem test_eeWrite :
    seen (.eeWrite 0x24#8 0xFFFF#16) (boundState [yes, yes]) =
      some ([0x00000000#32], [.write 0x5A#7 [0x24#8, 0x00#8, 0x00#8, 0x28#8] true, .wait 10,
        .write 0x5A#7 [0x24#8, 0xFF#8, 0xFF#8, 0x0C#8] true, .wait 10]) := by decide
set_option maxRecDepth 8000 in
theorem test_eeWrite_erase_fails :
    seen (.eeWrite 0x25#8 0x9FB2#16) (boundState [no, yes]) =
      some ([0x10000000#32], [.write 0x5A#7 [0x25#8, 0x00#8, 0x00#8, 0x43#8] false, .wait 10,
        .write 0x5A#7 [0x25#8, 0xB2#8, 0x9F#8, 0xF2#8] true, .wait 10]) := by decide
theorem test_readNoise :
    (seen .readNoise (boundState [config])).map Prod.fst = some [0x002B0700#32] := by decide
theorem test_readNoise_invalid_field :
    (seen .readNoise (boundState [reads 0x00#8 0x01#8 0x00#8])).map Prod.fst = some [0x00000100#32] := by decide
theorem test_readSpike_zero :
    (seen .readSpike (boundState [reads 0x00#8 0x00#8 0xE4#8])).map Prod.fst = some [0x00E41000#32] := by decide
theorem test_readSpike_zero_busStatus :
    (seen .readSpike { boundState [reads 0x00#8 0x00#8 0xE4#8] with
      params := { Params.default with spikeFailTest := .busStatus } }).map Prod.fst = some [0x00E40000#32] := by decide
set_option maxRecDepth 8000 in
theorem test_writeNoise :
    seen (.writeNoise 0x0400#16) (boundState [config, yes, yes]) =
      some ([0x00000000#32], [.writeRead 0x5A#7 [0x25#8] 3 true [0xB4#8, 0x9F#8, 0x2B#8],
        .write 0x5A#7 [0x25#8, 0x00#8, 0x00#8, 0x43#8] true, .wait 10,
        .write 0x5A#7 [0x25#8, 0xB4#8, 0x9C#8, 0x85#8] true, .wait 10]) := by decide
theorem test_writeNoise_zero_config_skipped :
    (seen (.writeNoise 0x0400#16) (boundState [reads 0x00#8 0x00#8 0xE4#8])).map Prod.fst =
      some [0x30000000#32] := by decide
set_option maxRecDepth 8000 in
theorem test_writeSpike :
    (seen (.writeSpike 0x0007#16) (boundState [config, yes, yes])).map (fun r => r.2.drop 3) =
      some [.write 0x5A#7 [0x25#8, 0xB7#8, 0x9F#8, 0xB3#8] true, .wait 10] := by decide
theorem test_writeSpike_ignored :
    seen (.writeSpike 0x0009#16) (boundState [config]) = some ([0x20000000#32], []) := by decide
set_option maxRecDepth 8000 in
theorem test_writeFilter :
    (seen (.writeFilter 0x0600#16 0x0003#16) (boundState [config, yes, yes])).map (fun r => r.2.drop 3) =
      some [.write 0x5A#7 [0x25#8, 0xB3#8, 0x9E#8, 0xE0#8] true, .wait 10] := by decide
theorem test_writeFilter_skipped :
    seen (.writeFilter 0x0700#16 0x0004#16) (boundState [config]) =
      some ([0x30000000#32], [.writeRead 0x5A#7 [0x25#8] 3 true [0xB4#8, 0x9F#8, 0x2B#8]]) := by decide

/-! ## The mock device (R36): programs P4 and P5, their last steps -/

/-- The mock of the programs, with one register set. -/
def mockState (ra : Nat) (v : Word) (failNext : Nat) : State :=
  { boundState [] with bus := .mock ⟨true, 0x5A#7, [(ra, v)], none, failNext⟩ }

theorem test_mock_lost_erase_poisons :
    (after (.eeWrite 0x25#8 0x9FB2#16) (mockState 0x25 0x9FB4#16 1)).map (fun t => (t.bus, t.responses)) =
      some (.mock ⟨true, 0x5A#7, [], none, 0⟩, [0x10000000#32]) := by decide
theorem test_mock_raw_write_poisons :
    (after (.write16 0x24#8 0xCCCC#16) (mockState 0x24 0xF333#16 0)).map (fun t => (t.bus, t.responses)) =
      some (.mock ⟨true, 0x5A#7, [], some 0x24#8, 0⟩, [0x00000000#32]) := by decide
set_option maxRecDepth 8000 in
theorem test_mock_read_pec :
    (seen (.read16 0x24#8) (mockState 0x24 0xF333#16 0)).map Prod.fst = some [0x00E3F333#32] := by decide

/-! ## The assembler (R53) -/

theorem test_assemble_symbol :
    assembleWord Params.default "EEWRITE CONFIG, 40884".toList = some 0x702500009FB4#48 := by decide
theorem test_assemble_hex_case : assembleWord Params.default "CRC_UPDATE 0xb4".toList = some 0x30B400000000#48 := by decide
theorem test_assemble_bad_digit : assembleLine Params.default "CRC_UPDATE 1F".toList = none := by decide
theorem test_assemble_too_wide : assembleLine Params.default "INIT 0x80".toList = none := by decide

/-! ## Witnesses: each statement's hypotheses are met together, clause by clause -/

/-- A state whose host issues `w` next. -/
def issuing (w : CommandWord) : State := unboundState [yes, yes, yes] [w]

theorem witness_EncodeDecodeRoundTrip : decode 0x602400003412#48 = .ok (.write16 0x24#8 0x3412#16) := by rfl
theorem witness_DecodeAgreesWithOpcodeTable :
    (⟨"WRITE_FILTER", 0xC00000000000#48, 0xFFFF00000000#48⟩ : TableRow) ∈ opcodeTable ∧
      0xC000FFFFFFFF#48 &&& 0xFFFF00000000#48 = 0xC00000000000#48 := by decide
theorem witness_IllegalWordsAnswered :
    (0xF00000000000#48).extractLsb' 44 4 ∈ [0x0#4, 0xD#4, 0xE#4, 0xF#4] ∧
      (0x115A00000000#48).extractLsb' 40 4 ≠ 0#4 ∧
      (0x10DA00000000#48).extractLsb' 44 4 = 0x1#4 ∧ (0x10DA00000000#48).getLsbD 39 = true ∧
      (issuing 0xD00000000000#48).port = [0xD00000000000#48] ∧ CommandWord.legal 0xD00000000000#48 = false := by decide
theorem witness_StepRunsDecodedCommand :
    (issuing 0x105A00000000#48).port = [0x105A00000000#48] ∧ decode 0x105A00000000#48 = .ok (.init 0x5A#7) :=
  ⟨rfl, rfl⟩
theorem witness_IdleStepChangesNothing : State.reset.port = [] := rfl
theorem witness_EveryCommandGivesOneResponse : (issuing 0x000000000000#48).port = 0x000000000000#48 :: [] := rfl
theorem witness_CrcLawsHold : [0x01#8, 0x80#8].length = [0xFF#8, 0x07#8].length := rfl
theorem witness_CrcCheckResult :
    (unboundState [] []).crcAcc = 0x00#8 ∧ (unboundState [] []).crcAcc ≠ 0x01#8 := by decide
theorem witness_CrcCommandsComputeCrc8 :
    (unboundState [] [0x200000000000#48, 0x30B400000000#48, 0x000000000000#48]).port =
      ((SourceOp.crc8Of [0xB4#8]).expand Params.default).map encode ++ [0x000000000000#48] := by decide
theorem witness_PecComparisonAnswers :
    (unboundState [] [0x200000000000#48, 0x30B400000000#48, 0x400500000000#48]).port =
      ((SourceOp.comparePec 0x05#8 [0xB4#8]).expand Params.default).map encode ++ [] := by decide

/-- For Read16Result, Write16Result, EeWriteResult, ReadNoiseResult and ReadSpikeResult: bound and unbound, a register in
`EEPROM_REGS` and one outside, a bus that succeeds and one that fails. -/
theorem witness_TransportResults :
    (boundState [config]).bound = true ∧ (unboundState [] []).bound = false ∧
      0x3F#8 ∈ (boundState []).params.eepromRegs ∧ 0x40#8 ∉ (boundState []).params.eepromRegs ∧
      0x3F#8 ∈ (unboundState [] []).params.eepromRegs ∧
      ((boundState [config]).answer (readQuery (boundState [config]) 0x25#8)).ok = true ∧
      ((boundState [no]).answer (readQuery (boundState [no]) 0x25#8)).ok = false := by decide
theorem witness_SpikeFailTestSettingsDiffer :
    (∃ t, exec .readSpike { boundState [config] with
      params := { Params.default with spikeFailTest := .zeroValue } } = .next t) ∧
    (∃ t, exec .readSpike { boundState [config] with
      params := { Params.default with spikeFailTest := .busStatus } } = .next t) ∧
    valueOf config ≠ 0x0000#16 ∧ valueOf (reads 0x00#8 0x00#8 0xE4#8) = 0x0000#16 ∧ no.ok = false :=
  ⟨⟨_, rfl⟩, ⟨_, rfl⟩, by decide, by decide, rfl⟩

/-- For WriteNoiseResult, WriteSpikeResult, WriteFilterResult, InvalidModesIgnored: valid and invalid modes at the ends
of their ranges, and a config value for each branch: failed, 0x0000, field equal, field different. -/
theorem witness_SetterResults :
    0x0400#16 ∈ (boundState []).params.noiseValid ∧ 0x0700#16 ∈ (boundState []).params.noiseValid ∧
      0x0300#16 ∉ (boundState []).params.noiseValid ∧ (0x0007#16).toNat ≤ 7 ∧ 7 < (0x0008#16).toNat ∧
      valueOf no = 0x0000#16 ∧ valueOf config &&& 0x0700#16 = 0x0700#16 ∧ valueOf config &&& 0x0700#16 ≠ 0x0400#16 := by
  decide
theorem witness_InvalidModesIgnored :
    (boundState []).bound = true ∧ ¬ ModesOk (boundState []).params (.writeSpike 0x0008#16) ∧
      ¬ ModesOk (boundState []).params (.writeNoise 0x0300#16) := by
  refine ⟨rfl, ?_, ?_⟩
  · simp [ModesOk]
  · simp only [ModesOk]; decide
set_option maxRecDepth 8000 in
theorem witness_SettersPreserveOtherBits :
    (boundState [config, yes, yes]).params.wf = true ∧
      ModesOk (boundState [config, yes, yes]).params (.writeNoise 0x0400#16) ∧
      ∃ t, exec (.writeNoise 0x0400#16) (boundState [config, yes, yes]) = .next t ∧
        t.history = (boundState [config, yes, yes]).history ++
          [.writeRead 0x5A#7 [0x25#8] 3 true [0xB4#8, 0x9F#8, 0x2B#8],
            .write 0x5A#7 [0x25#8, 0x00#8, 0x00#8, 0x43#8] true, .wait 10,
            .write 0x5A#7 [0x25#8, 0xB4#8, 0x9C#8, 0x85#8] true, .wait 10] := by
  refine ⟨by decide, by simp only [ModesOk]; decide, _, rfl, ?_⟩
  decide
theorem witness_UnboundTransactorFaults :
    (Instr.read16 0xFF#8).isTransactor = true ∧ TargetOk (unboundState [] []).params (.read16 0xFF#8) ∧
      (unboundState [] []).bound = false ∧ Instr.crcClear.isTransactor = false ∧
      ∃ t, exec .crcClear (unboundState [] []) = .next t :=
  ⟨rfl, trivial, rfl, rfl, _, rfl⟩
theorem witness_IllegalCommandsFault : ¬ TargetOk (boundState []).params (.eeWrite 0x40#8 0x0000#16) := by
  simp only [TargetOk]; decide

/-- For OutcomePriority: a step from a state whose host issues a word, one for each clause. -/
theorem witness_OutcomePriority :
    (∃ t, step (issuing 0xD00000000000#48) = .next t) ∧ (∃ t, step (issuing 0x600700001234#48) = .next t) ∧
      (∃ t, step (issuing 0xB00000000009#48) = .next t) ∧
      (∃ t, step { boundState [config] with port := [0xB00000000009#48] } = .next t) ∧
      (∃ t, step { boundState [config] with port := [0xB00000000004#48] } = .next t) :=
  ⟨⟨_, rfl⟩, ⟨_, rfl⟩, ⟨_, rfl⟩, ⟨_, rfl⟩, ⟨_, rfl⟩⟩
/-- For BusFailureReportedOnce, either way: a failed write, and a failed read. -/
theorem witness_BusFailureReportedOnce_write :
    ∃ t, exec (.write16 0x24#8 0xCCCC#16) (boundState [no]) = .next t ∧
      t.responses = (boundState [no]).responses ++ [0x10000000#32] ∧ responseStatus 0x10000000#32 = 0x1#4 :=
  ⟨_, rfl, by decide, by decide⟩
theorem witness_BusFailureReportedOnce_read :
    ∃ t, exec (.read16 0x25#8) (boundState [no]) = .next t ∧
      t.responses = (boundState [no]).responses ++ [0x10000000#32] ∧ responseStatus 0x10000000#32 = 0x1#4 ∧
      t.history = (boundState [no]).history ++ [.writeRead 0x5A#7 [0x25#8] 3 false []] ∧
      HasFailure [.writeRead 0x5A#7 [0x25#8] 3 false []] :=
  ⟨_, rfl, by decide, by decide, by decide, .inl ⟨_, _, _, _, List.mem_singleton.mpr rfl⟩⟩
theorem witness_FrameOfEveryCommand :
    (∃ t, exec (.read16 0x25#8) (boundState [config]) = .next t) ∧ (∃ t, exec .crcClear (boundState []) = .next t) ∧
      (∃ t, exec (.init 0x5A#7) { boundState [] with faultMark := true } = .next t) :=
  ⟨⟨_, rfl⟩, ⟨_, rfl⟩, ⟨_, rfl⟩⟩
theorem witness_RegistersChangeOnlyByTheirCommands :
    (∃ t, step (issuing 0x105A00000000#48) = .next t ∧ t.bound ≠ (issuing 0x105A00000000#48).bound) ∧
      (∃ t, step (issuing 0x30B400000000#48) = .next t ∧ t.crcAcc ≠ (issuing 0x30B400000000#48).crcAcc) :=
  ⟨⟨_, rfl, by decide⟩, ⟨_, rfl, by decide⟩⟩
theorem witness_TrafficOfEachCommand :
    (∃ t, exec (.eeWrite 0x24#8 0xFFFF#16) (boundState [yes, yes]) = .next t) ∧
      TargetOk (boundState [yes, yes]).params (.eeWrite 0x24#8 0xFFFF#16) ∧ (boundState [yes, yes]).bound = true :=
  ⟨⟨_, rfl⟩, by simp only [TargetOk]; decide, rfl⟩
theorem witness_InvariantsHoldAtReset : Params.default.wf = true := by decide

/-- For StepKeepsBinding, StepKeepsFrames, StepKeepsResponses, StepKeepsCanonicalMemory and StepKeepsSettled: a state
with every invariant, whose next step is an INIT that finds the device. -/
theorem witness_Invariants :
    let s := issuing 0x105A00000000#48
    BindingInv s ∧ FramesInv s ∧ ResponsesInv s ∧ CanonicalInv s ∧ SettledInv s ∧ ∃ t, step s = .next t := by
  refine ⟨⟨rfl, ?_⟩, ⟨by decide, by simp [issuing, unboundState]⟩, ⟨by simp [issuing, unboundState], rfl⟩, trivial,
    ⟨by decide, ?_, ?_⟩, _, rfl⟩
  · intro before e after h
    simp [issuing, unboundState] at h
  · intro before a7 w ok after h
    simp [issuing, unboundState] at h
  · intro w hw ra v
    have hw' : w = 0x105A00000000#48 := by simpa [issuing, unboundState] using hw
    subst hw'
    exact fun h => by cases h
theorem witness_CanonicalMock :
    CanonicalInv (mockState 0x24 0xF333#16 0) := by
  simp only [CanonicalInv, mockState]; decide
theorem witness_UnboundAddressUnobservable :
    SameButUnboundAddr (unboundState [] []) { unboundState [] [] with devAddr := 0x7F#7 } :=
  ⟨rfl, fun h => by cases h⟩
theorem witness_CrcAccIndependent :
    (Instr.read16 0x25#8).isTransactor = true ∧ ∃ t, exec (.read16 0x25#8) (boundState [config]) = .next t :=
  ⟨rfl, _, rfl⟩

end Sys2Proof.Tests
end

section
/-! PROOFS. The family of 00_scope.md: the bus primitives, the invariants at reset, and the frames every step keeps. -/

namespace Sys2Proof.Machine

variable (s : State)

/-! ## What a primitive leaves unchanged (R8, R29) -/

theorem issue_frame (q : BusQuery) :
    s.issue q = { s with history := (s.issue q).history, bus := (s.issue q).bus } := rfl

theorem waitSettle_frame :
    waitSettle s = { s with history := (waitSettle s).history, bus := (waitSettle s).bus } := rfl

/-! ## What every command appends to the history -/

/-- Every command keeps the parameters and appends to the history: INIT its probe, any other command one of the lists
of `CommandEvents`. -/
theorem exec_appends {i : Instr} {t : State} (h : exec i s = .next t) :
    t.params = s.params ∧ ∃ es, t.history = s.history ++ es ∧
      ((∃ a7 present, i = .init a7 ∧ es = [.probe a7 present]) ∨ CommandEvents s i es) := by
  cases i with
  | init a7 =>
    obtain ⟨present, bus, st, data, -, rfl⟩ := exec_init_cases s h
    exact ⟨rfl, [.probe a7 present], rfl, .inl ⟨a7, present, rfl, rfl⟩⟩
  | crcClear => cases h; exact ⟨rfl, [], by simp, .inr .none⟩
  | crcUpdate b => cases h; exact ⟨rfl, [], by simp, .inr .none⟩
  | _ =>
    obtain ⟨es, bus, st, aux, data, rfl, -, hes⟩ := exec_transacted s (by simp) (by simp) (by simp) h
    exact ⟨rfl, es, rfl, .inr hes⟩

/-! ## Framed events (R21, R47 to R49, R81) -/

/-- The constraints of R5 that the frames rest on: the wait is long enough and the config register may be written. -/
theorem tEE_and_regConfig_of_wf {p : Params} (h : p.wf = true) : 10 ≤ p.tEE ∧ p.regConfig ∈ p.eepromRegs := by
  simp only [Params.wf, Params.waitLongEnough, Params.namedRegsInEeprom, Bool.and_eq_true, decide_eq_true_eq,
    List.contains_iff_mem] at h
  obtain ⟨⟨⟨⟨hwait, -⟩, hconfig, -⟩, -⟩, -⟩ := h
  exact ⟨hwait, hconfig⟩

theorem framedEvent_readEvent (p : Params) (ra : Byte) (a : BusAnswer) : FramedEvent p (readEvent s ra a) :=
  ⟨⟨ra, rfl⟩, rfl, by cases a.ok <;> rfl⟩

theorem framedEvent_writeEvent {p : Params} {ra : Byte} (v : Word) (ok : Bool) (target : ra ∈ p.eepromRegs) :
    FramedEvent p (writeEvent s ra v ok) :=
  ⟨ra, lo v, hi v, rfl, target⟩

theorem framedEvent_erasedWriteEvents (hwf : s.params.wf = true) {ra : Byte} (v : Word) (ok1 ok2 : Bool)
    (target : ra ∈ s.params.eepromRegs) : ∀ e ∈ erasedWriteEvents s ra v ok1 ok2, FramedEvent s.params e := by
  have hwait : FramedEvent s.params (.wait s.params.tEE) := ⟨rfl, (tEE_and_regConfig_of_wf hwf).1⟩
  simp [erasedWriteEvents, framedEvent_writeEvent s _ _ target, hwait]

/-- Every event that a command other than INIT can append is framed: its writes name EEPROM registers, since a target
was checked and `REG_CONFIG` is one by R5. -/
theorem CommandEvents.framed {s : State} {i : Instr} {es : List BusEvent} (hwf : s.params.wf = true)
    (h : CommandEvents s i es) : ∀ e ∈ es, FramedEvent s.params e := by
  cases h with
  | none => simp
  | read ra a => simpa using framedEvent_readEvent s s.params ra a
  | write ra v ok target => simpa using framedEvent_writeEvent s v ok target
  | erasedWrite ra v ok1 ok2 target => exact framedEvent_erasedWriteEvents s hwf v ok1 ok2 target
  | update a v ok1 ok2 =>
    exact List.forall_mem_cons.mpr ⟨framedEvent_readEvent s s.params s.params.regConfig a,
      framedEvent_erasedWriteEvents s hwf v ok1 ok2 (tEE_and_regConfig_of_wf hwf).2⟩

/-- Framed events appended to the history keep the invariant. -/
theorem framesInv_append {s t : State} {es : List BusEvent} (hs : FramesInv s) (hp : t.params = s.params)
    (hh : t.history = s.history ++ es) (hes : ∀ e ∈ es, FramedEvent s.params e) : FramesInv t := by
  obtain ⟨hwf, hold⟩ := hs
  refine ⟨hp ▸ hwf, ?_⟩
  rw [hp, hh]
  exact List.forall_mem_append.mpr ⟨hold, hes⟩

theorem exec_keeps_framesInv {s t : State} {i : Instr} (hs : FramesInv s) (h : exec i s = .next t) : FramesInv t := by
  obtain ⟨hp, es, hh, ⟨a7, present, -, rfl⟩ | hes⟩ := exec_appends s h
  · have hprobe : FramedEvent s.params (.probe a7 present) := trivial
    exact framesInv_append hs hp hh (by simpa using hprobe)
  · exact framesInv_append hs hp hh (hes.framed hs.1)

/-! ## The invariants at reset (R100) -/

section Reset

variable (p : Params) (a7 : DevAddr) (bus : Bus) (port : List CommandWord)

theorem bindingInv_resetOf : BindingInv (State.resetOf p a7 bus port) :=
  ⟨rfl, fun before e after h => by simp at h⟩

theorem framesInv_resetOf {p : Params} (hwf : p.wf = true) : FramesInv (State.resetOf p a7 bus port) :=
  ⟨hwf, by simp⟩

theorem responsesInv_resetOf : ResponsesInv (State.resetOf p a7 bus port) := ⟨by simp, rfl⟩

theorem settled_nil : Settled [] := fun before a7 w ok after h => by simp at h

end Reset

/-- Settles O37: the history and frame lemmas of `issue` and `waitSettle`, with the event of each primitive. -/
theorem primitiveAppendsOneEvent : Obligations.PrimitiveAppendsOneEvent := fun s =>
  ⟨fun a7 => by rw [issue_history, busEvent_probe], fun a7 w => by rw [issue_history, busEvent_write],
    fun a7 w m => by rw [issue_history, busEvent_writeRead], waitSettle_history s, issue_frame s, waitSettle_frame s⟩

/-- Settles O41: reset leaves no event, no response and no binding, and the default parameters are within R5. -/
theorem invariantsHoldAtReset : Obligations.InvariantsHoldAtReset := by
  intro p a7 script port hwf
  have hdefault : Params.default.wf = true := by decide
  exact ⟨bindingInv_resetOf p a7 _ port, framesInv_resetOf a7 _ port hwf, responsesInv_resetOf p a7 _ port, trivial,
    settled_nil, rfl, bindingInv_resetOf _ _ _ _, framesInv_resetOf _ _ _ hdefault, responsesInv_resetOf _ _ _ _,
    hdefault, settled_nil, fun w hw => absurd hw List.not_mem_nil⟩

/-- Settles O43: no command at the port and an illegal word append no event, and every command appends framed events
only. -/
theorem stepKeepsFrames : Obligations.StepKeepsFrames := by
  intro s t hs h
  rcases step_cases s h with ⟨-, rfl⟩ | ⟨w, rest, -, ⟨i, -, hi⟩ | ⟨e, -, rfl⟩⟩
  · exact hs
  · exact exec_keeps_framesInv (s := { s with port := rest }) hs hi
  · exact hs

end Sys2Proof.Machine
end

section
/-! PROOFS. The family of 10_state.md: what each command does to the registers and the records, what every step keeps
of them, and which registers a step does not read. -/

namespace Sys2Proof.Machine

variable (s : State)

/-! ## What a command can do, over all commands -/

/-- The effect of a command: INIT's, those of the two commands that write `CRC_ACC`, or one that writes no register. -/
inductive Executed : Instr → State → Prop where
  | init (a7 : DevAddr) (present : Bool) (bus : Bus) (st : Status) (data : Word) (noFault : st.isFault = false) :
      Executed (.init a7) { s with
        devAddr := a7
        bound := present
        history := s.history ++ [.probe a7 present]
        bus := bus
        responses := s.responses ++ [responseWord st 0x00#8 data] }
  | crcClear : Executed .crcClear (respond .ok pecInit 0x0000#16 (s.setCrcAcc pecInit))
  | crcUpdate (b : Byte) :
      Executed (.crcUpdate b) (respond .ok (crcByte s.crcAcc b) 0x0000#16 (s.setCrcAcc (crcByte s.crcAcc b)))
  | transacted {i : Instr} {t : State} (notInit : ∀ a7, i ≠ .init a7) (notClear : i ≠ .crcClear)
      (notUpdate : ∀ b, i ≠ .crcUpdate b) (ht : Transacted s i t) : Executed i t

variable {s} {t : State} {i : Instr}

theorem exec_executed (h : exec i s = .next t) : Executed s i t := by
  cases i with
  | init a7 =>
    obtain ⟨present, bus, st, data, hst, rfl⟩ := exec_init_cases s h
    exact .init a7 present bus st data hst
  | crcClear => cases h; exact .crcClear
  | crcUpdate b => cases h; exact .crcUpdate b
  | _ => exact .transacted (by simp) (by simp) (by simp) (exec_transacted s (by simp) (by simp) (by simp) h)

theorem exec_total (i : Instr) (s : State) : ∃ t, exec i s = .next t := by cases i <;> exact ⟨_, rfl⟩

/-! ## The frame of a command, field by field -/

theorem exec_params_port (h : exec i s = .next t) : t.params = s.params ∧ t.port = s.port := by
  cases exec_executed h with
  | init | crcClear | crcUpdate => exact ⟨rfl, rfl⟩
  | transacted _ _ _ ht => obtain ⟨es, bus, st, aux, data, rfl, -⟩ := ht; exact ⟨rfl, rfl⟩

theorem exec_devAddr_bound (h : exec i s = .next t) (notInit : ∀ a7, i ≠ .init a7) :
    t.devAddr = s.devAddr ∧ t.bound = s.bound := by
  cases exec_executed h with
  | init a7 => exact absurd rfl (notInit a7)
  | crcClear | crcUpdate => exact ⟨rfl, rfl⟩
  | transacted _ _ _ ht => obtain ⟨es, bus, st, aux, data, rfl, -⟩ := ht; exact ⟨rfl, rfl⟩

theorem exec_init_devAddr {a7 : DevAddr} (h : exec (.init a7) s = .next t) : t.devAddr = a7 := by
  obtain ⟨present, bus, st, data, -, rfl⟩ := exec_init_cases s h
  rfl

theorem exec_crcAcc (h : exec i s = .next t) (notClear : i ≠ .crcClear) (notUpdate : ∀ b, i ≠ .crcUpdate b) :
    t.crcAcc = s.crcAcc := by
  cases exec_executed h with
  | init => rfl
  | crcClear => exact absurd rfl notClear
  | crcUpdate b => exact absurd rfl (notUpdate b)
  | transacted _ _ _ ht => obtain ⟨es, bus, st, aux, data, rfl, -⟩ := ht; rfl

/-- A CRC command touches neither the bus nor what has been seen on it, and is never a fault. -/
theorem exec_crc_frame (h : exec i s = .next t)
    (hi : i = .crcClear ∨ (∃ b, i = .crcUpdate b) ∨ (∃ p, i = .crcCheck p)) :
    t.history = s.history ∧ t.bus = s.bus ∧ t.faultMark = s.faultMark := by
  rcases hi with rfl | ⟨b, rfl⟩ | ⟨p, rfl⟩ <;> cases h <;> exact ⟨rfl, rfl, rfl⟩

/-- Every command gives one response, and sets the fault mark exactly when that response is a fault (R45, R97). -/
theorem exec_responds (h : exec i s = .next t) : ∃ st aux data,
    t.responses = s.responses ++ [responseWord st aux data] ∧ t.faultMark = (s.faultMark || st.isFault) := by
  cases exec_executed h with
  | init a7 present bus st data noFault => exact ⟨st, 0x00#8, data, rfl, by simp [noFault]⟩
  | crcClear => exact ⟨.ok, pecInit, 0x0000#16, rfl, (Bool.or_false _).symm⟩
  | crcUpdate b => exact ⟨.ok, crcByte s.crcAcc b, 0x0000#16, rfl, (Bool.or_false _).symm⟩
  | transacted _ _ _ ht =>
    obtain ⟨es, bus, st, aux, data, rfl, -⟩ := ht
    exact ⟨st, aux, data, rfl, rfl⟩

/-- A command that changes `DEV_ADDR` or `BOUND` is INIT, of the address `DEV_ADDR` holds after it. -/
theorem init_of_exec_changes (h : exec i s = .next t) (hchange : t.devAddr ≠ s.devAddr ∨ t.bound ≠ s.bound) :
    i = .init t.devAddr := by
  by_contra hne
  have notInit : ∀ a7, i ≠ .init a7 := by
    rintro a7 rfl
    exact hne (by rw [exec_init_devAddr h])
  obtain ⟨hdev, hbound⟩ := exec_devAddr_bound h notInit
  exact hchange.elim (· hdev) (· hbound)

/-- A command that changes `CRC_ACC` is CRC_CLEAR or CRC_UPDATE. -/
theorem crc_of_exec_changes (h : exec i s = .next t) (hchange : t.crcAcc ≠ s.crcAcc) :
    (i = .crcClear ∧ t.crcAcc = 0x00#8) ∨ ∃ b, i = .crcUpdate b ∧ t.crcAcc = crcByte s.crcAcc b := by
  cases exec_executed h with
  | init => exact absurd rfl hchange
  | crcClear => exact .inl ⟨rfl, rfl⟩
  | crcUpdate b => exact .inr ⟨b, rfl, rfl⟩
  | transacted _ notClear notUpdate _ => exact absurd (exec_crcAcc h notClear notUpdate) hchange

/-! ## The binding and the history (R10, R11, R20) -/

/-- A transaction goes to the device of the binding `b`: what `AddressedByBinding` asks of an event. -/
def AddressedTo (b : Option DevAddr) : BusEvent → Prop
  | .probe _ _ => True
  | .write a7 _ _ => b = some a7
  | .writeRead a7 _ _ _ _ => b = some a7
  | .wait _ => True

theorem addressedByBinding_iff {h : List BusEvent} : AddressedByBinding h ↔
    ∀ before e after, h = before ++ e :: after → AddressedTo (boundTo before) e := by
  refine forall_congr' fun before => forall_congr' fun e => forall_congr' fun after => ?_
  cases e <;> rfl

/-- The event is no probe. -/
def KeepsBinding : BusEvent → Prop
  | .probe _ _ => False
  | .write _ _ _ => True
  | .writeRead _ _ _ _ _ => True
  | .wait _ => True

/-- Every event of a command other than INIT goes to `DEV_ADDR` and is no probe. -/
theorem CommandEvents.addressedTo {es : List BusEvent} (h : CommandEvents s i es) :
    ∀ e ∈ es, AddressedTo (some s.devAddr) e ∧ KeepsBinding e := by
  cases h <;> simp [erasedWriteEvents, readEvent, writeEvent, AddressedTo, KeepsBinding]

theorem boundTo_concat_probe (h : List BusEvent) (a7 : DevAddr) (present : Bool) :
    boundTo (h ++ [.probe a7 present]) = if present then some a7 else none := by
  simp [boundTo]

theorem boundTo_concat_of_keepsBinding {e : BusEvent} (h : List BusEvent) (he : KeepsBinding e) :
    boundTo (h ++ [e]) = boundTo h := by
  cases e with
  | probe => exact he.elim
  | write | writeRead | wait => simp [boundTo]

/-- Of a history with one more event only that event is to be checked. -/
theorem addressedByBinding_concat {h : List BusEvent} {e : BusEvent} (hh : AddressedByBinding h)
    (he : AddressedTo (boundTo h) e) : AddressedByBinding (h ++ [e]) := by
  rw [addressedByBinding_iff] at hh ⊢
  intro before e' after heq
  rcases after.eq_nil_or_concat with rfl | ⟨after', e'', rfl⟩
  · obtain ⟨rfl, he'⟩ := List.append_inj' heq rfl
    cases he'
    exact he
  · have hinit : h ++ [e] = (before ++ e' :: after') ++ [e''] := by simpa using heq
    exact hh before e' after' (List.append_inj' hinit rfl).1

/-- Events that go to the bound device keep the binding and the addressing. -/
theorem addressedByBinding_append {es : List BusEvent} : ∀ {h : List BusEvent}, AddressedByBinding h →
    (∀ e ∈ es, AddressedTo (boundTo h) e ∧ KeepsBinding e) →
    boundTo (h ++ es) = boundTo h ∧ AddressedByBinding (h ++ es) := by
  induction es with
  | nil => intro h hh _; simpa using hh
  | cons e es ih =>
    intro h hh hes
    obtain ⟨⟨haddr, hkeep⟩, hrest⟩ := List.forall_mem_cons.mp hes
    have hbound : boundTo (h ++ [e]) = boundTo h := boundTo_concat_of_keepsBinding h hkeep
    simpa [hbound] using ih (addressedByBinding_concat hh haddr) (by rwa [hbound])

/-- A command other than INIT appends nothing while unbound, and else only events that go to `DEV_ADDR`. -/
theorem exec_appends_addressed (h : exec i s = .next t) (notInit : ∀ a7, i ≠ .init a7) :
    ∃ es, t.history = s.history ++ es ∧ (s.bound = false → es = []) ∧
      ∀ e ∈ es, AddressedTo (some s.devAddr) e ∧ KeepsBinding e := by
  cases exec_executed h with
  | init a7 => exact absurd rfl (notInit a7)
  | crcClear | crcUpdate => exact ⟨[], (List.append_nil _).symm, fun _ => rfl, by simp⟩
  | transacted _ _ _ ht =>
    obtain ⟨es, bus, st, aux, data, rfl, hunbound, hes⟩ := ht
    exact ⟨es, rfl, hunbound, hes.addressedTo⟩

theorem exec_init_keeps_bindingInv {a7 : DevAddr} (hs : BindingInv s) (h : exec (.init a7) s = .next t) :
    BindingInv t := by
  obtain ⟨present, bus, st, data, -, rfl⟩ := exec_init_cases s h
  exact ⟨boundTo_concat_probe s.history a7 present, addressedByBinding_concat hs.2 trivial⟩

theorem exec_keeps_bindingInv (hs : BindingInv s) (h : exec i s = .next t) : BindingInv t := by
  by_cases hinit : ∃ a7, i = .init a7
  · obtain ⟨a7, rfl⟩ := hinit
    exact exec_init_keeps_bindingInv hs h
  · have notInit : ∀ a7, i ≠ .init a7 := not_exists.mp hinit
    obtain ⟨hdev, hbound⟩ := exec_devAddr_bound h notInit
    obtain ⟨es, hhist, hunbound, hes⟩ := exec_appends_addressed h notInit
    obtain ⟨hbinding, haddr⟩ := hs
    have hes' : ∀ e ∈ es, AddressedTo (boundTo s.history) e ∧ KeepsBinding e := by
      cases hb : s.bound with
      | false => simp [hunbound hb]
      | true => simpa [hbinding, hb] using hes
    obtain ⟨hkept, haddr'⟩ := addressedByBinding_append haddr hes'
    rw [← hhist] at hkept haddr'
    exact ⟨by rw [hkept, hbinding, hdev, hbound], haddr'⟩

/-! ## Responses and the fault mark (R18, R45, R97) -/

/-- One more response word keeps the invariant, when the mark is set exactly for a fault. -/
theorem responsesInv_append {st : Status} {aux : Byte} {data : Word} (hs : ResponsesInv s)
    (hr : t.responses = s.responses ++ [responseWord st aux data]) (hm : t.faultMark = (s.faultMark || st.isFault)) :
    ResponsesInv t := by
  obtain ⟨hwf, hmark⟩ := hs
  refine ⟨?_, ?_⟩
  · rw [hr]
    exact List.forall_mem_append.mpr ⟨hwf, by simpa using st.code_le⟩
  · simp [hr, hm, hmark, isFaultResponse_responseWord, Status.isFault]

theorem exec_keeps_responsesInv (hs : ResponsesInv s) (h : exec i s = .next t) : ResponsesInv t := by
  obtain ⟨st, aux, data, hr, hm⟩ := exec_responds h
  exact responsesInv_append hs hr hm

/-! ## The step, by what stands at the port -/

theorem step_of_port_nil (hp : s.port = []) : step s = .next s := by
  simp [step, fetch, hp, idle]

theorem step_of_decode_ok {w : CommandWord} {rest : List CommandWord} (hp : s.port = w :: rest)
    (hd : decode w = .ok i) : step s = exec i { s with port := rest } := by
  simp [step, fetch, hp, hd]

theorem step_of_decode_error {w : CommandWord} {rest : List CommandWord} {e : IllegalWord} (hp : s.port = w :: rest)
    (hd : decode w = .error e) : step s = .next (takeFault .illegal { s with port := rest }) := by
  simp [step, fetch, hp, hd, illegalWord]

theorem step_total (s : State) : ∃ t, step s = .next t := by
  cases hp : s.port with
  | nil => exact ⟨s, step_of_port_nil hp⟩
  | cons w rest =>
    cases hd : decode w with
    | ok i => rw [step_of_decode_ok hp hd]; exact exec_total i _
    | error e => exact ⟨_, step_of_decode_error hp hd⟩

/-! ## Registers a command does not read

An update `u` of a register, such as `(·.setDevAddr a7)`, passes through a check that does not read the register. -/

section Commutes

variable {u : State → State} {body : State → State}

theorem whenBound_comm (hu : (u s).bound = s.bound)
    (hfault : takeFault .notBound (u s) = u (takeFault .notBound s))
    (hbody : s.bound = true → body (u s) = u (body s)) : whenBound body (u s) = u (whenBound body s) := by
  unfold whenBound
  rw [hu]
  split
  · exact hbody ‹_›
  · exact hfault

theorem whenEeprom_comm {ra : Byte} (hu : (u s).params = s.params)
    (hfault : takeFault .illegal (u s) = u (takeFault .illegal s)) (hbody : body (u s) = u (body s)) :
    whenEeprom ra body (u s) = u (whenEeprom ra body s) := by
  unfold whenEeprom
  rw [hu]
  split
  · exact hbody
  · exact hfault

end Commutes

/-! ### `DEV_ADDR` while unbound (R10, R92) -/

theorem whenBound_setDevAddr {body : State → State} (a7 : DevAddr) (hb : s.bound = false) :
    whenBound body (s.setDevAddr a7) = (whenBound body s).setDevAddr a7 :=
  whenBound_comm (u := (·.setDevAddr a7)) rfl rfl (by simp [hb])

/-- While unbound no command but INIT reads or writes `DEV_ADDR`. -/
theorem exec_setDevAddr (a7 : DevAddr) (hb : s.bound = false) (notInit : ∀ a, i ≠ .init a)
    (h : exec i s = .next t) : exec i (s.setDevAddr a7) = .next (t.setDevAddr a7) := by
  cases i with
  | init a => exact absurd rfl (notInit a)
  | crcClear | crcUpdate | crcCheck => cases h; rfl
  | read16 | readNoise | readSpike | writeNoise | writeSpike | writeFilter =>
    cases h
    exact congrArg Host.Outcome.next (whenBound_setDevAddr a7 hb)
  | write16 | eeWrite =>
    cases h
    exact congrArg Host.Outcome.next
      (whenEeprom_comm (u := (·.setDevAddr a7)) rfl rfl (whenBound_setDevAddr a7 hb))

/-- INIT overwrites `DEV_ADDR` before anything reads it (R60). -/
theorem exec_init_setDevAddr (a a7 : DevAddr) : exec (.init a) (s.setDevAddr a7) = exec (.init a) s := rfl

theorem sameButUnboundAddr_refl (s : State) : SameButUnboundAddr s s := ⟨rfl, fun _ => rfl⟩

theorem sameButUnboundAddr_setDevAddr (a7 : DevAddr) (hb : s.bound = false) :
    SameButUnboundAddr s (s.setDevAddr a7) :=
  ⟨rfl, by simp [hb]⟩

/-- Two states so related are equal, or unbound and equal but for `DEV_ADDR`. -/
theorem sameButUnboundAddr_cases {s s' : State} (h : SameButUnboundAddr s s') :
    s' = s ∨ (s.bound = false ∧ s' = s.setDevAddr s'.devAddr) := by
  obtain ⟨heq, haddr⟩ := h
  cases hb : s.bound with
  | false => exact .inr ⟨rfl, heq⟩
  | true => exact .inl (by rw [heq, haddr hb])

theorem exec_sameButUnboundAddr (i : Instr) (a7 : DevAddr) (hb : s.bound = false) :
    ∃ t t', exec i s = .next t ∧ exec i (s.setDevAddr a7) = .next t' ∧ SameButUnboundAddr t t' := by
  obtain ⟨t, h⟩ := exec_total i s
  by_cases hinit : ∃ a, i = .init a
  · obtain ⟨a, rfl⟩ := hinit
    exact ⟨t, t, h, (exec_init_setDevAddr a a7).trans h, sameButUnboundAddr_refl t⟩
  · have notInit : ∀ a, i ≠ .init a := not_exists.mp hinit
    have htb : t.bound = false := (exec_devAddr_bound h notInit).2.trans hb
    exact ⟨t, t.setDevAddr a7, h, exec_setDevAddr a7 hb notInit h, sameButUnboundAddr_setDevAddr a7 htb⟩

theorem step_sameButUnboundAddr (a7 : DevAddr) (hb : s.bound = false) :
    ∃ t t', step s = .next t ∧ step (s.setDevAddr a7) = .next t' ∧ SameButUnboundAddr t t' := by
  cases hp : s.port with
  | nil =>
    exact ⟨s, s.setDevAddr a7, step_of_port_nil hp, step_of_port_nil hp, sameButUnboundAddr_setDevAddr a7 hb⟩
  | cons w rest =>
    cases hd : decode w with
    | ok i =>
      rw [step_of_decode_ok hp hd, step_of_decode_ok (s := s.setDevAddr a7) hp hd]
      exact exec_sameButUnboundAddr (s := { s with port := rest }) i a7 hb
    | error e =>
      exact ⟨_, _, step_of_decode_error hp hd, step_of_decode_error (s := s.setDevAddr a7) hp hd,
        sameButUnboundAddr_setDevAddr (s := takeFault .illegal { s with port := rest }) a7 hb⟩

/-! ### `CRC_ACC` (R12, R77) -/

theorem updateField_setCrcAcc (c : Byte) (mask request : Word) :
    updateField mask request (s.setCrcAcc c) = (updateField mask request s).setCrcAcc c := by
  simp only [updateField, apply_ite (State.setCrcAcc · c)]
  rfl

theorem whenValid_updateField_setCrcAcc (c : Byte) (valid : Bool) (mask request : Word) :
    whenValid valid (updateField mask request) (s.setCrcAcc c) =
      (whenValid valid (updateField mask request) s).setCrcAcc c := by
  cases valid
  · rfl
  · exact updateField_setCrcAcc c mask request

theorem whenBound_setCrcAcc {body : State → State} (c : Byte) (hbody : body (s.setCrcAcc c) = (body s).setCrcAcc c) :
    whenBound body (s.setCrcAcc c) = (whenBound body s).setCrcAcc c :=
  whenBound_comm (u := (·.setCrcAcc c)) rfl rfl fun _ => hbody

theorem exec_transactor_setCrcAcc (c : Byte) (hi : i.isTransactor = true) (h : exec i s = .next t) :
    exec i (s.setCrcAcc c) = .next (t.setCrcAcc c) := by
  cases i with
  | init | crcClear | crcUpdate | crcCheck => cases hi
  | read16 | readNoise | readSpike =>
    cases h
    exact congrArg Host.Outcome.next (whenBound_setCrcAcc c rfl)
  | write16 | eeWrite =>
    cases h
    exact congrArg Host.Outcome.next
      (whenEeprom_comm (u := (·.setCrcAcc c)) rfl rfl (whenBound_setCrcAcc c rfl))
  | writeNoise | writeSpike | writeFilter =>
    cases h
    exact congrArg Host.Outcome.next (whenBound_setCrcAcc c (whenValid_updateField_setCrcAcc c _ _ _))

theorem initAnswer_setCrcAcc (c : Byte) (present : Bool) (s : State) :
    initAnswer present (s.setCrcAcc c) = (initAnswer present s).setCrcAcc c := by
  cases present <;> rfl

theorem exec_init_setCrcAcc {a7 : DevAddr} (c : Byte) (h : exec (.init a7) s = .next t) :
    exec (.init a7) (s.setCrcAcc c) = .next (t.setCrcAcc c) := by
  cases h
  exact congrArg Host.Outcome.next (initAnswer_setCrcAcc c (busProbe (s.setDevAddr a7)).1
    ((busProbe (s.setDevAddr a7)).2.setBound (busProbe (s.setDevAddr a7)).1))

/-! ## The statements -/

/-- Settles O42: INIT's probe sets the binding anew, and any other command's events go to the bound device. -/
theorem stepKeepsBinding : Obligations.StepKeepsBinding := by
  intro s t hs h
  rcases step_cases s h with ⟨-, rfl⟩ | ⟨w, rest, -, ⟨i, -, hi⟩ | ⟨e, -, rfl⟩⟩
  · exact hs
  · exact exec_keeps_bindingInv (s := { s with port := rest }) hs hi
  · exact hs

/-- Settles O44: every command, legal or not, gives one response and marks it if it is a fault. -/
theorem stepKeepsResponses : Obligations.StepKeepsResponses := by
  intro s t hs h
  rcases step_cases s h with ⟨-, rfl⟩ | ⟨w, rest, -, ⟨i, -, hi⟩ | ⟨e, -, rfl⟩⟩
  · exact hs
  · exact exec_keeps_responsesInv (s := { s with port := rest }) hs hi
  · exact responsesInv_append hs rfl (Bool.or_true _).symm

/-- Settles O47: INIT overwrites `DEV_ADDR`, the CRC commands do not read it, and an unbound transactor command is
turned away before its pseudocode reads it. -/
theorem unboundAddressUnobservable : Obligations.UnboundAddressUnobservable := by
  intro s s' hs
  rcases sameButUnboundAddr_cases hs with rfl | ⟨hb, heq⟩
  · obtain ⟨t, h⟩ := step_total s'
    exact ⟨t, t, h, h, sameButUnboundAddr_refl t⟩
  · rw [heq]
    exact step_sameButUnboundAddr s'.devAddr hb

/-- Settles O33: the frame lemmas of `exec`, field by field. -/
theorem frameOfEveryCommand : Obligations.FrameOfEveryCommand := by
  intro i s t h
  obtain ⟨hparams, hport⟩ := exec_params_port h
  obtain ⟨-, es, hhistory, -⟩ := exec_appends s h
  obtain ⟨st, aux, data, hresponses, hmark⟩ := exec_responds h
  exact ⟨hparams, hport, exec_devAddr_bound h, exec_crcAcc h, exec_crc_frame h, ⟨es, hhistory⟩, ⟨_, hresponses⟩,
    fun hm => by rw [hmark, hm, Bool.true_or]⟩

/-- Settles O34: an idle step and an illegal word change no register, so the command changed it. -/
theorem registersChangeOnlyByTheirCommands : Obligations.RegistersChangeOnlyByTheirCommands := by
  intro s t h
  rcases step_cases s h with ⟨-, rfl⟩ | ⟨w, rest, hp, ⟨i, hd, hi⟩ | ⟨e, -, rfl⟩⟩
  · simp
  · refine ⟨fun hchange => ⟨w, rest, t.devAddr, hp, ?_, rfl⟩, fun hchange => ⟨w, rest, hp, ?_⟩⟩
    · rw [hd, init_of_exec_changes hi hchange]
    · rcases crc_of_exec_changes hi hchange with ⟨rfl, hc⟩ | ⟨b, rfl, hc⟩
      · exact .inl ⟨hd, hc⟩
      · exact .inr ⟨b, hd, hc⟩
  · simp

/-- Settles O48: an update of `CRC_ACC` passes through INIT and through every transactor command. -/
theorem crcAccIndependent : Obligations.CrcAccIndependent := by
  rintro i s t c (htransactor | ⟨a7, rfl⟩) h
  · refine ⟨exec_transactor_setCrcAcc c htransactor h, exec_crcAcc h ?_ ?_⟩
    · rintro rfl; cases htransactor
    · rintro b rfl; cases htransactor
  · exact ⟨exec_init_setCrcAcc c h, exec_crcAcc h (by simp) (by simp)⟩

end Sys2Proof.Machine
end

section
/-! PROOFS. The family of 20_memory.md: how a command moves the bus collaborator, the bus traffic of each command and
what it reports of it, and the order of a value's bytes. -/

namespace Sys2Proof.Machine

variable {s t : State} {i : Instr}

/-! ## How a command moves the bus collaborator (R28, R36) -/

/-- `b'` is the collaborator `b` after some primitives and waits. -/
inductive BusMoves (p : Params) (b : Bus) : Bus → Prop where
  | refl : BusMoves p b b
  | advance {b' : Bus} (q : BusQuery) (h : BusMoves p b b') : BusMoves p b (b'.advance p q)
  | wait {b' : Bus} (d : Nat) (h : BusMoves p b b') : BusMoves p b (b'.wait p d)

theorem busMoves_whenBound {body : State → State} (h : BusMoves s.params s.bus (body s).bus) :
    BusMoves s.params s.bus (whenBound body s).bus := by
  rcases whenBound_cases s body with ⟨-, e⟩ | ⟨-, e⟩
  · exact e ▸ h
  · exact e ▸ .refl

theorem busMoves_whenEeprom {ra : Byte} {body : State → State} (h : BusMoves s.params s.bus (body s).bus) :
    BusMoves s.params s.bus (whenEeprom ra body s).bus := by
  rcases whenEeprom_cases s ra body with ⟨-, e⟩ | ⟨-, e⟩
  · exact e ▸ h
  · exact e ▸ .refl

theorem busMoves_whenValid {valid : Bool} {body : State → State} (h : BusMoves s.params s.bus (body s).bus) :
    BusMoves s.params s.bus (whenValid valid body s).bus := by
  cases valid
  · exact .refl
  · exact h

theorem busMoves_eeWriteBody {b : Bus} (ra : Byte) (v : Word) (h : BusMoves s.params b s.bus) :
    BusMoves s.params b (eeWriteBody ra v s).bus :=
  .wait _ (.advance _ (.wait _ (.advance _ h)))

theorem busMoves_updateField (mask request : Word) :
    BusMoves s.params s.bus (updateField mask request s).bus := by
  have hread := BusMoves.refl (p := s.params) (b := s.bus).advance
    (.writeRead s.devAddr [s.params.regConfig] readReplyLen)
  rcases updateField_cases s mask request with ⟨-, -, h⟩ | ⟨-, -, h⟩ | ⟨-, -, -, h⟩ | ⟨-, -, -, h⟩
  · exact h ▸ hread
  · exact h ▸ hread
  · exact h ▸ hread
  · exact h ▸ busMoves_eeWriteBody (s := s.issue _) _ _ hread

theorem initAnswer_bus (present : Bool) (s : State) : (initAnswer present s).bus = s.bus := by
  cases present <;> rfl

theorem exec_busMoves (h : exec i s = .next t) : BusMoves s.params s.bus t.bus := by
  cases i with
  | init a7 => cases h; rw [initAnswer_bus]; exact .advance _ .refl
  | crcClear | crcUpdate | crcCheck => cases h; exact .refl
  | read16 | readNoise | readSpike => cases h; exact busMoves_whenBound (.advance _ .refl)
  | write16 => cases h; exact busMoves_whenEeprom (busMoves_whenBound (.advance _ .refl))
  | eeWrite => cases h; exact busMoves_whenEeprom (busMoves_whenBound (busMoves_eeWriteBody _ _ .refl))
  | writeNoise | writeSpike | writeFilter =>
    cases h
    exact busMoves_whenBound (busMoves_whenValid (busMoves_updateField _ _))

/-- What `CanonicalInv` asks of the bus collaborator. -/
def CanonicalBus (b : Bus) : Prop := ∀ d, b = .mock d → d.reg.wf = true

theorem canonicalInv_iff : CanonicalInv s ↔ CanonicalBus s.bus := by
  unfold CanonicalInv CanonicalBus
  cases s.bus <;> simp

theorem canonicalBus_advance {b : Bus} (p : Params) (q : BusQuery) (h : CanonicalBus b) :
    CanonicalBus (b.advance p q) := by
  cases b with
  | oracle script => exact fun d hd => by cases hd
  | mock d => rintro _ ⟨⟩; exact MockDevice.respond_wf p q (h d rfl)

theorem canonicalBus_wait {b : Bus} (p : Params) (n : Nat) (h : CanonicalBus b) : CanonicalBus (b.wait p n) := by
  cases b with
  | oracle script => exact h
  | mock d => rintro _ ⟨⟩; exact MockDevice.wait_wf p n (h d rfl)

theorem BusMoves.canonicalBus {p : Params} {b b' : Bus} (hm : BusMoves p b b') (hb : CanonicalBus b) :
    CanonicalBus b' := by
  induction hm with
  | refl => exact hb
  | advance q _ ih => exact canonicalBus_advance p q ih
  | wait n _ ih => exact canonicalBus_wait p n ih

theorem exec_keeps_canonicalInv (hs : CanonicalInv s) (h : exec i s = .next t) : CanonicalInv t :=
  canonicalInv_iff.mpr ((exec_busMoves h).canonicalBus (canonicalInv_iff.mp hs))

/-! ## Failed transactions (R90, R91) -/

/-- The event is a write or a write-read that was answered with failure. -/
def failedEvent : BusEvent → Bool
  | .probe _ _ => false
  | .write _ _ ok => !ok
  | .writeRead _ _ _ ok _ => !ok
  | .wait _ => false

theorem hasFailure_iff {es : List BusEvent} : HasFailure es ↔ ∃ e ∈ es, failedEvent e = true := by
  constructor
  · rintro (⟨a7, w, m, reply, h⟩ | ⟨a7, w, h⟩)
    · exact ⟨_, h, rfl⟩
    · exact ⟨_, h, rfl⟩
  · rintro ⟨e, he, hfail⟩
    cases e with
    | probe | wait => cases hfail
    | write a7 w ok => cases ok <;> cases hfail; exact .inr ⟨a7, w, he⟩
    | writeRead a7 w m ok reply => cases ok <;> cases hfail; exact .inl ⟨a7, w, m, reply, he⟩

@[simp] theorem hasFailure_nil : ¬ HasFailure [] := by simp [hasFailure_iff]

@[simp] theorem hasFailure_cons (e : BusEvent) (es : List BusEvent) :
    HasFailure (e :: es) ↔ failedEvent e = true ∨ HasFailure es := by
  simp [hasFailure_iff]

@[simp] theorem failedEvent_probe (a7 : DevAddr) (present : Bool) : failedEvent (.probe a7 present) = false := rfl

@[simp] theorem failedEvent_wait (n : Nat) : failedEvent (.wait n) = false := rfl

@[simp] theorem failedEvent_readEvent (ra : Byte) (a : BusAnswer) : failedEvent (readEvent s ra a) = !a.ok := rfl

@[simp] theorem failedEvent_writeEvent (ra : Byte) (v : Word) (ok : Bool) :
    failedEvent (writeEvent s ra v ok) = !ok := rfl

@[simp] theorem hasFailure_erasedWriteEvents (ra : Byte) (v : Word) (ok1 ok2 : Bool) :
    HasFailure (erasedWriteEvents s ra v ok1 ok2) ↔ (ok1 && ok2) = false := by
  cases ok1 <;> simp [erasedWriteEvents]

@[simp] theorem busStatus_eq_busFail (ok : Bool) : busStatus ok = .busFail ↔ ok = false := by
  cases ok <;> simp [busStatus]

/-- Some write-read among the events was answered with failure. -/
def HasFailedRead (es : List BusEvent) : Prop := ∃ a7 w m reply, .writeRead a7 w m false reply ∈ es

@[simp] theorem not_hasFailedRead_erasedWriteEvents (ra : Byte) (v : Word) (ok1 ok2 : Bool) :
    ¬ HasFailedRead (erasedWriteEvents s ra v ok1 ok2) := by
  simp [HasFailedRead, erasedWriteEvents, writeEvent]

theorem not_hasFailedRead_update (ra : Byte) {a : BusAnswer} (ha : a.ok = true) (v : Word) (ok1 ok2 : Bool) :
    ¬ HasFailedRead (readEvent s ra a :: erasedWriteEvents s ra v ok1 ok2) := by
  simp [HasFailedRead, readEvent, erasedWriteEvents, writeEvent, ha]

/-! ## The shapes of R25 -/

theorem isRead_readEvent (ra : Byte) (a : BusAnswer) : IsRead s.devAddr ra (readEvent s ra a) :=
  ⟨a.ok, _, rfl, by cases a.ok <;> rfl⟩

theorem isWrite_writeEvent (ra : Byte) (v : Word) (ok : Bool) : IsWrite s.devAddr ra (writeEvent s ra v ok) :=
  ⟨_, _, _, ok, rfl⟩

theorem isErasedWrite_erasedWriteEvents (ra : Byte) (v : Word) (ok1 ok2 : Bool) :
    IsErasedWrite s.devAddr ra s.params.tEE (erasedWriteEvents s ra v ok1 ok2) :=
  ⟨_, _, isWrite_writeEvent ra 0x0000#16 ok1, isWrite_writeEvent ra v ok2, rfl⟩

/-- Only the transactor commands issue writes and write-reads. -/
theorem isTransactor_of_hasFailure {es : List BusEvent} (h : IsTraffic s i es) (hf : HasFailure es) :
    i.isTransactor = true := by
  cases i with
  | init a7 => obtain ⟨present, rfl⟩ := h; simp at hf
  | crcClear | crcUpdate | crcCheck => cases h; simp at hf
  | _ => rfl

theorem CommandEvents.length_le_five {es : List BusEvent} (h : CommandEvents s i es) : es.length ≤ 5 := by
  cases h <;> simp [erasedWriteEvents]

/-! ## What a command that no fault turns away does on the bus, and reports of it -/

/-- No fault turns the command away: its target may be written, and the block is bound if it has to be (R92, R93). -/
def Admitted (s : State) (i : Instr) : Prop := TargetOk s.params i ∧ (i.isTransactor = true → s.bound = true)

/-- The command appends events as `traffic` allows and gives one response that is no fault, BUS_FAIL exactly when one of
the events failed; after a failed read it issues nothing more. -/
def Performed (traffic : List BusEvent → Prop) (s t : State) : Prop :=
  ∃ es st aux data, t.history = s.history ++ es ∧ t.responses = s.responses ++ [responseWord st aux data] ∧
    t.faultMark = s.faultMark ∧ traffic es ∧ (st = .busFail ↔ HasFailure es) ∧ (HasFailedRead es → es.length = 1)

theorem performed_nothing {traffic : List BusEvent → Prop} {st : Status} {aux : Byte} {data : Word}
    (hh : t.history = s.history) (hr : t.responses = s.responses ++ [responseWord st aux data])
    (hm : t.faultMark = s.faultMark) (htraffic : traffic []) (hst : st ≠ .busFail) : Performed traffic s t :=
  ⟨[], st, aux, data, by simp [hh], hr, hm, htraffic, by simp [hst], by simp [HasFailedRead]⟩

theorem performed_init {a7 : DevAddr} (h : exec (.init a7) s = .next t) : Performed (IsTraffic s (.init a7)) s t := by
  cases h
  have hreport : ∀ present u, ∃ st data, st ≠ .busFail ∧ initAnswer present u = respond st 0x00#8 data u := by
    rintro (_ | _) u
    · exact ⟨.noDevice, _, by simp, rfl⟩
    · exact ⟨.ok, _, by simp, rfl⟩
  obtain ⟨st, data, hst, he⟩ := hreport (busProbe (s.setDevAddr a7)).1
    ((busProbe (s.setDevAddr a7)).2.setBound (busProbe (s.setDevAddr a7)).1)
  rw [he]
  exact ⟨[.probe a7 (busProbe (s.setDevAddr a7)).1], st, 0x00#8, data, rfl, rfl, rfl, ⟨_, rfl⟩, by simp [hst],
    by simp [HasFailedRead]⟩

/-- One read, reported as BUS_FAIL exactly when it failed. -/
theorem performed_read {traffic : List BusEvent → Prop} {ra : Byte} {st : Status} {aux : Byte} {data : Word}
    (htraffic : ∀ e, IsRead s.devAddr ra e → traffic [e])
    (hst : st = .busFail ↔ (s.answer (.writeRead s.devAddr [ra] readReplyLen)).ok = false) :
    Performed traffic s (respond st aux data (s.issue (.writeRead s.devAddr [ra] readReplyLen))) :=
  ⟨[readEvent s ra (s.answer (.writeRead s.devAddr [ra] readReplyLen))], st, aux, data, rfl, rfl, rfl,
    htraffic _ (isRead_readEvent ra _), by simp [hst], fun _ => rfl⟩

theorem performed_write16Body (ra : Byte) (v : Word) :
    Performed (IsTraffic s (.write16 ra v)) s (write16Body ra v s) :=
  ⟨[writeEvent s ra v (busWrite16 ra v s).1], busStatus (busWrite16 ra v s).1, 0x00#8, 0x0000#16, rfl, rfl, rfl,
    ⟨_, isWrite_writeEvent ra v _, rfl⟩, by simp, fun _ => rfl⟩

theorem performed_eeWriteBody (ra : Byte) (v : Word) :
    Performed (IsErasedWrite s.devAddr ra s.params.tEE) s (eeWriteBody ra v s) := by
  obtain ⟨ok1, ok2, bus, h⟩ := eeWriteBody_eq s ra v
  rw [h]
  exact ⟨erasedWriteEvents s ra v ok1 ok2, busStatus (ok1 && ok2), 0x00#8, 0x0000#16, rfl, rfl, rfl,
    isErasedWrite_erasedWriteEvents ra v ok1 ok2, by simp,
    fun hf => absurd hf (not_hasFailedRead_erasedWriteEvents ra v ok1 ok2)⟩

/-- A setter's erase/write cycle after its successful read. -/
theorem performed_read_eeWriteBody
    (hok : (s.answer (.writeRead s.devAddr [s.params.regConfig] readReplyLen)).ok = true) (v : Word) :
    Performed (IsSetterTraffic s.devAddr s.params.regConfig s.params.tEE) s
      (eeWriteBody s.params.regConfig v (s.issue (.writeRead s.devAddr [s.params.regConfig] readReplyLen))) := by
  obtain ⟨ok1, ok2, bus, h⟩ := eeWriteBody_eq (s.issue (.writeRead s.devAddr [s.params.regConfig] readReplyLen))
    s.params.regConfig v
  rw [h]
  exact ⟨readEvent s s.params.regConfig (s.answer (.writeRead s.devAddr [s.params.regConfig] readReplyLen)) ::
      erasedWriteEvents s s.params.regConfig v ok1 ok2, busStatus (ok1 && ok2), 0x00#8, 0x0000#16,
    List.append_assoc _ _ _, rfl, rfl,
    .inr (.inr ⟨_, _, isRead_readEvent _ _, isErasedWrite_erasedWriteEvents _ v ok1 ok2, rfl⟩), by simp [hok],
    fun hf => absurd hf (not_hasFailedRead_update _ hok v ok1 ok2)⟩

theorem performed_updateField (mask request : Word) :
    Performed (IsSetterTraffic s.devAddr s.params.regConfig s.params.tEE) s (updateField mask request s) := by
  have hone : ∀ e, IsRead s.devAddr s.params.regConfig e →
      IsSetterTraffic s.devAddr s.params.regConfig s.params.tEE [e] := fun e he => .inr (.inl ⟨e, he, rfl⟩)
  rcases updateField_cases s mask request with ⟨-, hok, h⟩ | ⟨-, hok, h⟩ | ⟨-, hok, -, h⟩ | ⟨-, hok, -, h⟩
  · exact h ▸ performed_read hone (by simp [hok])
  · exact h ▸ performed_read hone (by simp [hok])
  · exact h ▸ performed_read hone (by simp [hok])
  · exact h ▸ performed_read_eeWriteBody hok _

theorem performed_setter (valid : Bool) (mask request : Word) :
    Performed (IsSetterTraffic s.devAddr s.params.regConfig s.params.tEE) s
      (whenValid valid (updateField mask request) s) := by
  cases valid
  · exact performed_nothing rfl rfl rfl (.inl rfl) (by simp)
  · exact performed_updateField mask request

theorem exec_admitted (ha : Admitted s i) (h : exec i s = .next t) : Performed (IsTraffic s i) s t := by
  obtain ⟨htarget, hbound⟩ := ha
  cases i with
  | init a7 => exact performed_init h
  | crcClear | crcUpdate | crcCheck => cases h; exact performed_nothing rfl rfl rfl rfl (by simp)
  | read16 | readNoise | readSpike =>
    cases h
    rw [whenBound_of_bound s (hbound rfl)]
    exact performed_read (fun e he => ⟨e, he, rfl⟩) (busStatus_eq_busFail _)
  | write16 ra v =>
    cases h
    rw [whenEeprom_of_mem s htarget, whenBound_of_bound s (hbound rfl)]
    exact performed_write16Body ra v
  | eeWrite ra v =>
    cases h
    rw [whenEeprom_of_mem s htarget, whenBound_of_bound s (hbound rfl)]
    exact performed_eeWriteBody ra v
  | writeNoise | writeSpike | writeFilter =>
    cases h
    rw [whenBound_of_bound s (hbound rfl)]
    exact performed_setter _ _ _

/-- A transactor command that is turned away for its target or for the binding takes a fault and does nothing else. -/
theorem exec_not_admitted (ha : ¬ Admitted s i) (h : exec i s = .next t) :
    ∃ st, st.isFault = true ∧ t = takeFault st s := by
  cases i with
  | init | crcClear | crcUpdate | crcCheck => exact absurd ⟨trivial, by simp [Instr.isTransactor]⟩ ha
  | read16 | readNoise | readSpike | writeNoise | writeSpike | writeFilter =>
    cases h
    rcases whenBound_cases s _ with ⟨hb, -⟩ | ⟨-, e⟩
    · exact absurd ⟨trivial, fun _ => hb⟩ ha
    · exact ⟨.notBound, rfl, e⟩
  | write16 | eeWrite =>
    cases h
    rcases whenEeprom_cases s _ (whenBound _) with ⟨hr, e⟩ | ⟨-, e⟩
    · rcases whenBound_cases s _ with ⟨hb, -⟩ | ⟨-, e'⟩
      · exact absurd ⟨hr, fun _ => hb⟩ ha
      · exact ⟨.notBound, rfl, e.trans e'⟩
    · exact ⟨.illegal, rfl, e⟩

theorem code_eq_busFail_iff {st : Status} : st.code = 0x1#4 ↔ st = .busFail := by cases st <;> decide

/-- The registers a transactor command leaves unchanged: all of them. -/
theorem exec_transactor_registers (hi : i.isTransactor = true) (h : exec i s = .next t) :
    t.devAddr = s.devAddr ∧ t.bound = s.bound ∧ t.crcAcc = s.crcAcc := by
  have notInit : ∀ a7, i ≠ .init a7 := by rintro a7 rfl; cases hi
  obtain ⟨hdev, hbound⟩ := exec_devAddr_bound h notInit
  exact ⟨hdev, hbound, exec_crcAcc h (by rintro rfl; cases hi) (by rintro b rfl; cases hi)⟩

/-! ## The order of a value's bytes (R22, R50) -/

theorem assemble_eq_append (b0 b1 : Byte) : assemble b0 b1 = b1 ++ b0 := by
  unfold assemble
  ext i h
  grind

theorem lo_append (b0 b1 : Byte) : lo (b1 ++ b0) = b0 := by
  unfold lo
  ext i h
  grind

theorem hi_append (b0 b1 : Byte) : hi (b1 ++ b0) = b1 := by
  unfold hi
  ext i h
  grind

/-! ## READ16 (R61) -/

theorem decode_read16_word (ra : Byte) : decode (packWord 0x5#4 ra 0#16 0#16) = .ok (.read16 ra) := by
  simp [decode, checkZero]

/-- The response of READ16: PEC and value under OK, or BUS_FAIL with zeros. -/
theorem responseWord_read16 (a : BusAnswer) :
    responseWord (busStatus a.ok) (readPec a) (readValue a) =
      if a.ok then 0x00#8 ++ a.r2 ++ (a.r1 ++ a.r0) else 0x10000000#32 := by
  cases h : a.ok
  · simpa [readPec, readValue, readFailValue, h] using responseWord_busStatus false
  · simp [readPec, readValue, h, busStatus, responseWord_ok, assemble_eq_append]

/-! ## The statements -/

/-- Settles O45: a command moves the bus collaborator by primitives and waits only, and each keeps the mock's list
canonical. -/
theorem stepKeepsCanonicalMemory : Obligations.StepKeepsCanonicalMemory := by
  intro s t hs h
  rcases step_cases s h with ⟨-, rfl⟩ | ⟨w, rest, -, ⟨i, -, hi⟩ | ⟨e, -, rfl⟩⟩
  · exact hs
  · exact exec_keeps_canonicalInv (s := { s with port := rest }) hs hi
  · exact hs

/-- Settles O18: the word of READ16, its one write-read and response while bound, and the fault while unbound. -/
theorem read16Result : Obligations.Read16Result := by
  refine ⟨decode_read16_word, fun ra s hb => ?_, fun ra s hb => ?_⟩
  · dsimp only
    rw [← responseWord_read16]
    exact congrArg Host.Outcome.next (whenBound_of_bound s hb)
  · exact congrArg Host.Outcome.next (whenBound_of_unbound s hb)

/-- Settles O32: the status of an admitted command is BUS_FAIL exactly when a transaction of it failed, and a command
turned away by a fault issues none. -/
theorem busFailureReportedOnce : Obligations.BusFailureReportedOnce := by
  intro s t i r h hr
  by_cases ha : Admitted s i
  · obtain ⟨es, st, aux, data, hh, hres, hmark, htraffic, hreport, hread⟩ := exec_admitted ha h
    obtain rfl : responseWord st aux data = r := by simpa [hres] using hr
    rw [responseStatus_responseWord, code_eq_busFail_iff, hreport]
    refine ⟨fun hf => ?_, fun es' _ hh' hf => ?_⟩
    · obtain ⟨hdev, hbound, hcrc⟩ := exec_transactor_registers (isTransactor_of_hasFailure htraffic hf) h
      exact ⟨hdev, hbound, hcrc, hmark, es, hh, htraffic, hf, hread⟩
    · obtain rfl : es = es' := by simpa [hh] using hh'
      exact hf
  · obtain ⟨st, hst, rfl⟩ := exec_not_admitted ha h
    obtain rfl : responseWord st 0x00#8 0x0000#16 = r := by simpa using hr
    rw [responseStatus_responseWord, code_eq_busFail_iff]
    refine ⟨?_, fun es _ hh hf => ?_⟩
    · rintro rfl
      cases hst
    · obtain rfl : es = [] := by simpa using hh
      exact absurd hf hasFailure_nil

/-- Settles O35: an admitted command performs its traffic, and a fault leaves the history as it was. -/
theorem trafficOfEachCommand : Obligations.TrafficOfEachCommand := by
  intro i s t h
  by_cases ha : Admitted s i
  · obtain ⟨es, st, aux, data, hh, -, -, htraffic, -⟩ := exec_admitted ha h
    exact ⟨es, hh, fun _ => htraffic, fun hn => absurd ha hn⟩
  · obtain ⟨st, -, rfl⟩ := exec_not_admitted ha h
    exact ⟨[], (List.append_nil _).symm, fun ha' => absurd ha' ha, fun _ => rfl⟩

/-- Settles O36: a step that runs a command appends INIT's probe or one of the lists of `CommandEvents`. -/
theorem atMostFiveEventsPerStep : Obligations.AtMostFiveEventsPerStep := by
  intro s
  obtain ⟨t, h⟩ := step_total s
  rcases step_cases s h with ⟨-, rfl⟩ | ⟨w, rest, -, ⟨i, -, hi⟩ | ⟨e, -, rfl⟩⟩
  · exact ⟨t, [], h, (List.append_nil _).symm, by simp⟩
  · obtain ⟨-, es, hh, ⟨a7, present, -, rfl⟩ | hes⟩ := exec_appends { s with port := rest } hi
    · exact ⟨t, _, h, hh, by simp⟩
    · exact ⟨t, es, h, hh, hes.length_le_five⟩
  · exact ⟨_, [], h, (List.append_nil _).symm, by simp⟩

/-- Settles O6: the equation of `step` at a word that decodes. -/
theorem stepRunsDecodedCommand : Obligations.StepRunsDecodedCommand := fun _ _ _ _ hp hd => step_of_decode_ok hp hd

/-- Settles O7: the equation of `step` at an empty port. -/
theorem idleStepChangesNothing : Obligations.IdleStepChangesNothing := fun _ hp => step_of_port_nil hp

/-- Settles O38: a scripted answer is the one given, and the script loses its head. -/
theorem oracleMayAnswerAnything : Obligations.OracleMayAnswerAnything := fun s q a script =>
  ⟨answer_script_cons s.params s.history q a script, rfl⟩

/-- Settles O39: the assembled value is the two bytes side by side, the first one low. -/
theorem byteOrderRoundTrip : Obligations.ByteOrderRoundTrip := by
  refine ⟨assemble_lo_hi, fun b0 b1 => ?_, assemble_eq_append⟩
  rw [assemble_eq_append]
  exact ⟨lo_append b0 b1, hi_append b0 b1⟩

end Sys2Proof.Machine
end

section
/-! PROOFS. The family of 30_encoding.md: decoder against encoder and opcode table, illegal words, the one response of
every command, the assembled examples, and the runs of CRC commands and setters. -/

namespace Sys2Proof

variable {w : CommandWord} {i : Instr}

/-! ## Decoder and encoder (R40 to R43) -/

theorem decode_encode (i : Instr) : decode (encode i) = .ok i := by
  cases i with
  | init a7 =>
    have hback : (a7.setWidth 8).setWidth 7 = a7 := by simp
    simp [encode, decode, decodeInit, hback, checkZero]
  | _ => simp [encode, decode, checkZero]

/-- A word is packed from the fields it has, `RSV` being 0. -/
theorem packWord_fields (hrsv : fieldRSV w = 0#4) : packWord (fieldOP w) (fieldR w) (fieldA w) (fieldB w) = w := by
  simp [eq_iff_fields, hrsv]

/-- A word that passes its row's checks is the word of the row's command `j`: the fields with an operand are its
operands, the others are zero. -/
theorem encode_eq_of_checkZero {op : BitVec 4} {useR useA useB : Bool} {j : Instr}
    (h : checkZero useR useA useB w j = .ok i)
    (hj : encode j = packWord op (if useR then fieldR w else 0#8) (if useA then fieldA w else 0#16)
      (if useB then fieldB w else 0#16))
    (hop : (fieldOP w).toNat = op.toNat) : encode i = w := by
  obtain ⟨rfl, hrsv, hr, ha, hb⟩ := checkZero_eq_ok.mp h
  rw [hj, ← BitVec.eq_of_toNat_eq hop, eq_iff_fields]
  cases useR <;> cases useA <;> cases useB <;> simp_all

/-- INIT's address in the low seven bits, bit 7 zero, is the whole of `R` (R41, R52). -/
theorem setWidth_setWidth_of_bit7_zero : ∀ {r : Byte}, r.getLsbD 7 = false → (r.setWidth 7).setWidth 8 = r := by
  decide

theorem encode_eq_of_decode (h : decode w = .ok i) : encode i = w := by
  unfold decode at h
  split at h
  case h_1 hop =>
    unfold decodeInit at h
    split at h
    · cases h
    next hbit =>
      refine encode_eq_of_checkZero (op := 0x1#4) h ?_ hop
      simp [encode, setWidth_setWidth_of_bit7_zero (Bool.eq_false_of_not_eq_true hbit)]
  case h_13 => cases h
  all_goals exact encode_eq_of_checkZero h rfl ‹_›

theorem decode_eq_ok_iff : decode w = .ok i ↔ encode i = w :=
  ⟨encode_eq_of_decode, fun h => h ▸ decode_encode i⟩

/-! ## The opcode table (R43) -/

theorem encode_fits_row (i : Instr) {row : TableRow} (hrow : row ∈ opcodeTable) (hm : i.mnemonic = row.mnemonic) :
    encode i &&& row.mask = row.pattern := by
  have h : Laws.FitsOwnRow.Statement i := by
    cases i with
    | init a7 => exact Laws.FitsOwnRow.init a7
    | crcClear => exact Laws.FitsOwnRow.crcClear
    | crcUpdate b => exact Laws.FitsOwnRow.crcUpdate b
    | crcCheck p => exact Laws.FitsOwnRow.crcCheck p
    | read16 ra => exact Laws.FitsOwnRow.read16 ra
    | write16 ra v => exact Laws.FitsOwnRow.write16 ra v
    | eeWrite ra v => exact Laws.FitsOwnRow.eeWrite ra v
    | readNoise => exact Laws.FitsOwnRow.readNoise
    | readSpike => exact Laws.FitsOwnRow.readSpike
    | writeNoise m => exact Laws.FitsOwnRow.writeNoise m
    | writeSpike m => exact Laws.FitsOwnRow.writeSpike m
    | writeFilter noise spike => exact Laws.FitsOwnRow.writeFilter noise spike
  exact h row hrow hm.symm

theorem exists_row (i : Instr) : ∃ row ∈ opcodeTable, i.mnemonic = row.mnemonic := by
  cases i <;> simp [opcodeTable, Instr.mnemonic]

/-- A row fixes `OP`: its mask has all four bits of the field. -/
theorem fieldOP_of_fits {row : TableRow} (hrow : row ∈ opcodeTable) (h : w &&& row.mask = row.pattern) :
    fieldOP w = fieldOP row.pattern := by
  have hmask : ∀ row ∈ opcodeTable, fieldOP row.mask = BitVec.allOnes 4 := by decide
  have hop := (and_eq_iff_fields.mp h).1
  rwa [hmask row hrow, BitVec.and_allOnes] at hop

/-- No two rows have one `OP`. -/
theorem row_eq_of_fieldOP_eq : ∀ row ∈ opcodeTable, ∀ row' ∈ opcodeTable,
    fieldOP row.pattern = fieldOP row'.pattern → row = row' := by
  decide

/-- A word that fits a row is packed from the row's `OP` and any `r`, `a`, `b` that the row's masks force on the word's
fields: an operand where the mask leaves the field free, 0 where the mask is full. -/
theorem packWord_eq_of_fits {op : BitVec 4} {r : Byte} {a b : Word} {m : CommandWord}
    (h : w &&& m = packWord op 0#8 0#16 0#16)
    (hop : fieldOP m = BitVec.allOnes 4) (hrsv : fieldRSV m = BitVec.allOnes 4)
    (hr : fieldR w &&& fieldR m = 0#8 → r = fieldR w) (ha : fieldA w &&& fieldA m = 0#16 → a = fieldA w)
    (hb : fieldB w &&& fieldB m = 0#16 → b = fieldB w) : packWord op r a b = w := by
  simp only [and_eq_iff_fields, fieldOP_packWord, fieldRSV_packWord, fieldR_packWord, fieldA_packWord, fieldB_packWord,
    hop, hrsv, BitVec.and_allOnes] at h
  obtain ⟨wop, wrsv, wr, wa, wb⟩ := h
  rw [hr wr, ha wa, hb wb, ← wop, packWord_fields wrsv]

/-- A word that fits a row is the word of a command of the row: the one whose operands are the fields that the mask
leaves free. -/
theorem exists_encode_of_fits {row : TableRow} (hrow : row ∈ opcodeTable) (h : w &&& row.mask = row.pattern) :
    ∃ i, encode i = w ∧ i.mnemonic = row.mnemonic := by
  have zero {n : Nat} {x : BitVec n} (hx : x &&& BitVec.allOnes n = 0#n) : 0#n = x := by rw [← hx, BitVec.and_allOnes]
  have operand {n : Nat} {x m : BitVec n} (_ : x &&& m = 0#n) : x = x := rfl
  have address : ∀ {r : Byte}, r &&& 0x80#8 = 0#8 → (r.setWidth 7).setWidth 8 = r := by decide
  simp only [opcodeTable, List.mem_cons, List.not_mem_nil, or_false] at hrow
  rcases hrow with rfl | rfl | rfl | rfl | rfl | rfl | rfl | rfl | rfl | rfl | rfl | rfl
  · exact ⟨.init ((fieldR w).setWidth 7), packWord_eq_of_fits h rfl rfl address zero zero, rfl⟩
  · exact ⟨.crcClear, packWord_eq_of_fits h rfl rfl zero zero zero, rfl⟩
  · exact ⟨.crcUpdate (fieldR w), packWord_eq_of_fits h rfl rfl operand zero zero, rfl⟩
  · exact ⟨.crcCheck (fieldR w), packWord_eq_of_fits h rfl rfl operand zero zero, rfl⟩
  · exact ⟨.read16 (fieldR w), packWord_eq_of_fits h rfl rfl operand zero zero, rfl⟩
  · exact ⟨.write16 (fieldR w) (fieldB w), packWord_eq_of_fits h rfl rfl operand zero operand, rfl⟩
  · exact ⟨.eeWrite (fieldR w) (fieldB w), packWord_eq_of_fits h rfl rfl operand zero operand, rfl⟩
  · exact ⟨.readNoise, packWord_eq_of_fits h rfl rfl zero zero zero, rfl⟩
  · exact ⟨.readSpike, packWord_eq_of_fits h rfl rfl zero zero zero, rfl⟩
  · exact ⟨.writeNoise (fieldB w), packWord_eq_of_fits h rfl rfl zero zero operand, rfl⟩
  · exact ⟨.writeSpike (fieldB w), packWord_eq_of_fits h rfl rfl zero zero operand, rfl⟩
  · exact ⟨.writeFilter (fieldA w) (fieldB w), packWord_eq_of_fits h rfl rfl zero operand operand, rfl⟩

/-- INIT's address is `R` without its top bit (R41). -/
theorem setWidth_fieldR (w : CommandWord) : (fieldR w).setWidth 7 = w.extractLsb' 32 7 := by
  unfold fieldR
  ext k hk
  grind

/-! ## Legal words (R44) -/

theorem legal_iff_fits : CommandWord.legal w = true ↔ ∃ row ∈ opcodeTable, w &&& row.mask = row.pattern := by
  simp [CommandWord.legal, TableRow.fits]

theorem legal_iff_encode : CommandWord.legal w = true ↔ ∃ i, encode i = w := by
  rw [legal_iff_fits]
  constructor
  · rintro ⟨row, hrow, h⟩
    obtain ⟨i, hi, -⟩ := exists_encode_of_fits hrow h
    exact ⟨i, hi⟩
  · rintro ⟨i, rfl⟩
    obtain ⟨row, hrow, hm⟩ := exists_row i
    exact ⟨row, hrow, encode_fits_row i hrow hm⟩

theorem legal_eq_false_iff : CommandWord.legal w = false ↔ ∀ i, encode i ≠ w := by
  rw [← Bool.not_eq_true, legal_iff_encode, not_exists]

theorem fieldOP_encode_notReserved (i : Instr) : fieldOP (encode i) ∉ [0x0#4, 0xD#4, 0xE#4, 0xF#4] := by
  cases i <;> simp [encode]

theorem fieldRSV_encode (i : Instr) : fieldRSV (encode i) = 0#4 := by
  cases i <;> simp [encode]

/-- Bit 39 of a word is `R[7]` (R40). -/
theorem getLsbD_fieldR_7 (w : CommandWord) : (fieldR w).getLsbD 7 = w.getLsbD 39 := by
  simp [fieldR]

/-- No INIT word has `R[7] = 1`. -/
theorem bit7_encode_of_init {i : Instr} (hop : fieldOP (encode i) = 0x1#4) : (fieldR (encode i)).getLsbD 7 = false := by
  cases i with
  | init a7 => simp [encode]
  | _ => simp [encode] at hop

theorem decode_eq_error_of_illegal (h : CommandWord.legal w = false) : ∃ e, decode w = .error e := by
  cases hd : decode w with
  | error e => exact ⟨e, rfl⟩
  | ok i => exact absurd (encode_eq_of_decode hd) (legal_eq_false_iff.mp h i)

/-! ## The statements on encodings -/

/-- Settles O2: each field that the decoder reads of a packed word is the field that was packed. -/
theorem decodeEncodeRoundTrip : Obligations.DecodeEncodeRoundTrip := decode_encode

/-- Settles O3: the decoder accepts a word only if every field without an operand is zero, so the command packs back to
the word. -/
theorem encodeDecodeRoundTrip : Obligations.EncodeDecodeRoundTrip := fun _ _ => encode_eq_of_decode

/-- Settles O4: a word decodes exactly when it is a command's word, a command's word fits its own row, and a word that
fits a row is packed from the fields the row leaves free; rows differ in `OP`. -/
theorem decodeAgreesWithOpcodeTable : Obligations.DecodeAgreesWithOpcodeTable := by
  refine ⟨fun w row hrow => ⟨?_, fun h => ?_⟩, fun w row row' hrow hrow' h h' => ?_, fun w i h => ?_⟩
  · rintro ⟨i, h, hm⟩
    rw [← encode_eq_of_decode h]
    exact encode_fits_row i hrow hm
  · obtain ⟨i, rfl, hm⟩ := exists_encode_of_fits hrow h
    exact ⟨i, decode_encode i, hm⟩
  · exact row_eq_of_fieldOP_eq row hrow row' hrow' ((fieldOP_of_fits hrow h).symm.trans (fieldOP_of_fits hrow' h'))
  · obtain rfl := encode_eq_of_decode h
    cases i with
    | init a7 => simp [← setWidth_fieldR, encode]
    | crcClear | readNoise | readSpike => trivial
    | crcUpdate | crcCheck | read16 => exact (fieldR_packWord _ _ _ _).symm
    | write16 | eeWrite => exact ⟨(fieldR_packWord _ _ _ _).symm, (fieldB_packWord _ _ _ _).symm⟩
    | writeNoise | writeSpike => exact (fieldB_packWord _ _ _ _).symm
    | writeFilter => exact ⟨(fieldA_packWord _ _ _ _).symm, (fieldB_packWord _ _ _ _).symm⟩

end Sys2Proof

namespace Sys2Proof.Machine

variable {s t : State} {i : Instr}

/-! ## The response of every step (R45, R97) -/

/-- Settles O5: the legal words are the commands' words, none of which has a reserved `OP`, a nonzero `RSV` or, for
INIT, `R[7] = 1`; the decoder rejects the others, and the step takes the fault. -/
theorem illegalWordsAnswered : Obligations.IllegalWordsAnswered := by
  refine ⟨fun w hop => legal_eq_false_iff.mpr ?_, fun w hrsv => legal_eq_false_iff.mpr ?_,
    fun w hop hbit => legal_eq_false_iff.mpr ?_, fun w => ?_, fun s w rest hp hw => ?_⟩
  · rintro i rfl
    exact fieldOP_encode_notReserved i hop
  · rintro i rfl
    exact hrsv (fieldRSV_encode i)
  · rintro i rfl
    rw [← getLsbD_fieldR_7, bit7_encode_of_init hop] at hbit
    cases hbit
  · simp only [legal_iff_encode, decode_eq_ok_iff]
  · obtain ⟨e, he⟩ := decode_eq_error_of_illegal hw
    exact step_of_decode_error hp he

/-- Settles O8: a command gives one response and leaves the port to the host, and so does the fault of an illegal
word. -/
theorem everyCommandGivesOneResponse : Obligations.EveryCommandGivesOneResponse := by
  intro s w rest hp
  have hresponse : ∃ t st aux data, step s = .next t ∧ t.port = rest ∧
      t.responses = s.responses ++ [responseWord st aux data] := by
    cases hd : decode w with
    | ok i =>
      obtain ⟨t, ht⟩ := exec_total i { s with port := rest }
      obtain ⟨st, aux, data, hr, -⟩ := exec_responds ht
      exact ⟨t, st, aux, data, (step_of_decode_ok hp hd).trans ht, (exec_params_port ht).2, hr⟩
    | error e => exact ⟨_, .illegal, 0x00#8, 0x0000#16, step_of_decode_error hp hd, rfl, rfl⟩
  obtain ⟨t, st, aux, data, ht, hport, hr⟩ := hresponse
  exact ⟨t, _, ht, hport, hr, responseRsv_responseWord .., by simpa using st.code_le⟩

/-- Settles O9: the fields of a packed response are those packed. -/
theorem responseWordFields : Obligations.ResponseWordFields := fun st aux data =>
  ⟨responseStatus_responseWord st aux data, responseRsv_responseWord st aux data, responseAux_responseWord st aux data,
    responseData_responseWord st aux data⟩

/-! ## Assembled examples (R55) -/

/-- A line that assembles to a command assembles to the command's word, which decodes to the command. -/
theorem assembleWord_of_assembleLine {p : Params} {line : List Char} {w : CommandWord}
    (h : assembleLine p line = some i) (hw : encode i = w) : assembleWord p line = some w ∧ decode w = .ok i := by
  subst hw
  exact ⟨by simp [assembleWord, h], decode_encode i⟩

/-- Settles O1: each line is read to its command, whose word is the one of the table; the two illegal words fit no
row. -/
theorem encodedExamplesDecode : Obligations.EncodedExamplesDecode := fun _ =>
  ⟨assembleWord_of_assembleLine rfl rfl, assembleWord_of_assembleLine rfl rfl, assembleWord_of_assembleLine rfl rfl,
    assembleWord_of_assembleLine rfl rfl, assembleWord_of_assembleLine rfl rfl, assembleWord_of_assembleLine rfl rfl,
    assembleWord_of_assembleLine rfl rfl, assembleWord_of_assembleLine rfl rfl, assembleWord_of_assembleLine rfl rfl,
    assembleWord_of_assembleLine rfl rfl, assembleWord_of_assembleLine rfl rfl, assembleWord_of_assembleLine rfl rfl,
    rfl, rfl, rfl, rfl⟩

/-! ## Runs of CRC commands (R54, R73 to R75) -/

theorem run_succ_of_step {M : Host.Core} {s t : M.State} (h : M.step s = .next t) (k : Nat) :
    M.run (k + 1) s = M.run k t := by
  rw [Host.Core.run, h]

/-- A run whose next command is `i` runs `i` and goes on. -/
theorem run_succ_of_issued {ws : List CommandWord} (hp : s.port = encode i :: ws)
    (h : exec i { s with port := ws } = .next t) (k : Nat) : Host.Core.run core (k + 1) s = Host.Core.run core k t :=
  run_succ_of_step (M := core) ((step_of_decode_ok hp (decode_encode i)).trans h) k

/-- The state after CRC_CLEAR or CRC_UPDATE has set `CRC_ACC` to `c` (R73, R74). -/
def crcSet (c : Byte) (s : State) : State := respond .ok c 0x0000#16 (s.setCrcAcc c)

theorem exec_crcClear_eq (s : State) : exec .crcClear s = .next (crcSet pecInit s) := rfl

theorem exec_crcUpdate_eq (b : Byte) (s : State) : exec (.crcUpdate b) s = .next (crcSet (crcByte s.crcAcc b) s) := rfl

theorem exec_crcCheck_eq (p : Byte) (s : State) : exec (.crcCheck p) s =
    .next (respond .ok s.crcAcc (if s.crcAcc = p then 0x0001#16 else 0x0000#16) s) := rfl

/-- The state after the accumulator has run from `c` through `bytes`, one response per value of the accumulator, with
`rest` left at the port. -/
def crcFed (c : Byte) (bytes : List Byte) (rest : List CommandWord) (s : State) : State :=
  { s with
    crcAcc := bytes.foldl crcByte c
    responses := s.responses ++ (bytes.scanl crcByte c).map (responseWord .ok · 0x0000#16)
    port := rest }

theorem crcFed_nil (c : Byte) : crcFed c [] s.port s = crcSet c s := rfl

theorem crcFed_cons (c b : Byte) (bytes : List Byte) (ws rest : List CommandWord) :
    crcFed c (b :: bytes) rest s = crcFed (crcByte c b) bytes rest { crcSet c s with port := ws } := by
  simp [crcFed, crcSet, respond, State.setCrcAcc]

/-- Issued after the accumulator was set to `c`, CRC_UPDATE for each byte feeds the bytes to it. -/
theorem run_crcUpdates (rest : List CommandWord) (k : Nat) (bytes : List Byte) (c : Byte) (s : State)
    (hp : s.port = (bytes.map Instr.crcUpdate).map encode ++ rest) :
    Host.Core.run core (bytes.length + k) (crcSet c s) = Host.Core.run core k (crcFed c bytes rest s) := by
  induction bytes generalizing c s with
  | nil =>
    obtain rfl : s.port = rest := hp
    rw [crcFed_nil, List.length_nil, Nat.zero_add]
  | cons b bytes ih =>
    have hport : (crcSet c s).port = encode (.crcUpdate b) :: ((bytes.map Instr.crcUpdate).map encode ++ rest) := hp
    rw [List.length_cons, Nat.add_right_comm, run_succ_of_issued hport (exec_crcUpdate_eq b _), ih _ _ rfl, crcFed_cons]
    rfl

/-- CRC_CLEAR, then CRC_UPDATE for each byte, feed the bytes to the initial accumulator. -/
theorem run_crc8 {bytes : List Byte} {rest : List CommandWord}
    (hp : s.port = encode .crcClear :: ((bytes.map Instr.crcUpdate).map encode ++ rest)) (k : Nat) :
    Host.Core.run core (bytes.length + k + 1) s = Host.Core.run core k (crcFed pecInit bytes rest s) := by
  rw [run_succ_of_issued hp (exec_crcClear_eq _), run_crcUpdates rest k bytes pecInit _ rfl]
  rfl

/-- The accumulator's values end in the fold of the bytes, after one value for each byte. -/
theorem scanl_eq_concat_foldl (bytes : List Byte) (c : Byte) :
    ∃ cs, bytes.scanl crcByte c = cs ++ [bytes.foldl crcByte c] ∧ cs.length = bytes.length := by
  have hne : bytes.scanl crcByte c ≠ [] := by simp
  refine ⟨(bytes.scanl crcByte c).dropLast, ?_, by simp⟩
  rw [← List.getLast_scanl hne, List.dropLast_concat_getLast]

/-- The responses of CRC8's commands: one for each byte, then one with `crc8` of the bytes in `AUX`. -/
theorem responses_crcFed (bytes : List Byte) (rest : List CommandWord) (s : State) :
    ∃ init, (crcFed pecInit bytes rest s).responses = s.responses ++ init ++ [0x00#8 ++ crc8 bytes ++ 0x0000#16] ∧
      init.length = bytes.length := by
  obtain ⟨cs, hcs, hlen⟩ := scanl_eq_concat_foldl bytes pecInit
  exact ⟨cs.map (responseWord .ok · 0x0000#16), by simp [crcFed, hcs, crc8, responseWord_ok], by simp [hlen]⟩

/-- Settles O15: the accumulator's run through the bytes, from CRC_CLEAR's value. -/
theorem crcCommandsComputeCrc8 : Obligations.CrcCommandsComputeCrc8 := fun s _ bytes rest hp =>
  ⟨crcFed pecInit bytes rest s, run_crc8 hp 0, rfl, responses_crcFed bytes rest s, rfl⟩

/-- Settles O16: the run of CRC8's commands over the frame leaves `crc8` of it in `CRC_ACC`, which CRC_CHECK compares
with the PEC. -/
theorem pecComparisonAnswers : Obligations.PecComparisonAnswers := by
  intro s p pec frame rest hp
  obtain ⟨init, hinit, hlen⟩ := responses_crcFed frame rest s
  have hport : s.port =
      encode .crcClear :: ((frame.map Instr.crcUpdate).map encode ++ encode (.crcCheck pec) :: rest) := by
    simpa [SourceOp.expand] using hp
  have hrun : Host.Core.run core (frame.length + 2) s = .next
      (respond .ok (crc8 frame) (if crc8 frame = pec then 0x0001#16 else 0x0000#16) (crcFed pecInit frame rest s)) :=
    (run_crc8 hport 1).trans (run_succ_of_issued rfl (exec_crcCheck_eq pec _) 0)
  refine ⟨_, init ++ [0x00#8 ++ crc8 frame ++ 0x0000#16], hrun, ?_, by simp [hlen], rfl, rfl, rfl⟩
  rw [respond_responses, hinit, responseWord_ok, List.append_assoc s.responses]

/-! ## The setters' second write (R88) -/

/-- The value's bytes as the wire carries them, put together again (R50). -/
theorem hi_append_lo (v : Word) : hi v ++ lo v = v := by
  rw [← assemble_eq_append, assemble_lo_hi]

/-- A merge keeps the value outside the mask. -/
theorem mergeField_and_not_mask {mask request : Word} (h : request &&& mask = request) (v : Word) :
    mergeField mask request v &&& ~~~mask = v &&& ~~~mask := by
  rw [← h, mergeField]
  ext k hk
  grind

/-- A merge holds the request inside the mask. -/
theorem mergeField_and_mask {mask request : Word} (h : request &&& mask = request) (v : Word) :
    mergeField mask request v &&& mask = request := by
  rw [← h, mergeField]
  ext k hk
  grind

/-- Values that agree outside a mask agree in every bit the mask leaves out. -/
theorem getLsbD_eq_of_and_not_mask {mask x y : Word} {k : Nat} (h : x &&& ~~~mask = y &&& ~~~mask) (hk : k < 16)
    (hmask : mask.getLsbD k = false) : x.getLsbD k = y.getLsbD k := by
  simpa only [BitVec.getLsbD_and, BitVec.getLsbD_not, hmask, hk, decide_true, Bool.not_false, Bool.and_true] using
    congrArg (·.getLsbD k) h

/-- A request inside one field is inside any wider one. -/
theorem and_mask_or {request mask mask' : Word} (h : request &&& mask = request) :
    request &&& (mask ||| mask') = request := by
  rw [← h]
  ext k hk
  grind

/-- R5 and R51: a noise mode lies inside its field. -/
theorem noiseMode_and_mask {p : Params} (hwf : p.wf = true) {m : Word} (hm : m ∈ p.noiseValid) :
    m &&& noiseMask = m := by
  simp only [Params.wf, Params.noiseSetOk, Bool.and_eq_true, List.all_eq_true, beq_iff_eq] at hwf
  obtain ⟨⟨-, -, hmodes⟩, -⟩ := hwf
  have hout : m &&& ~~~noiseMask = 0#16 := (hmodes m hm).1
  calc
    m &&& noiseMask = m &&& noiseMask ||| m &&& ~~~noiseMask := by rw [hout, BitVec.or_zero]
    _ = m := by rw [← BitVec.and_or_distrib_left, BitVec.or_not_self, BitVec.and_allOnes]

/-- R51: a spike mode lies inside its field. -/
theorem spikeMode_and_mask {m : Word} (hm : m.toNat ≤ 7) : m &&& spikeMask = m := by
  apply BitVec.eq_of_toNat_eq
  have hmod : m.toNat &&& 7 = m.toNat % 2 ^ 3 := Nat.and_two_pow_sub_one_eq_mod m.toNat 3
  rw [BitVec.toNat_and, show spikeMask.toNat = 7 from rfl, hmod, Nat.mod_eq_of_lt (by omega)]

/-- The command `i` is a setter that writes `request` to the field under `mask` (R85 to R87). -/
def IsSetter (i : Instr) (mask request : Word) : Prop :=
  (i = .writeNoise request ∧ mask = 0x0700#16) ∨ (i = .writeSpike request ∧ mask = 0x0007#16) ∨
    (∃ m n, i = .writeFilter m n ∧ request = m ||| n ∧ mask = 0x0707#16)

variable {mask request : Word}

theorem exec_setter (hset : IsSetter i mask request) (hmodes : ModesOk s.params i) (hb : s.bound = true) :
    exec i s = .next (updateField mask request s) := by
  rcases hset with ⟨rfl, rfl⟩ | ⟨rfl, rfl⟩ | ⟨m, n, rfl, rfl, rfl⟩
  · have hvalid : noiseModeValid s.params request = true := List.contains_iff_mem.mpr hmodes
    simp [exec, execWriteNoise, whenBound_of_bound s hb, hvalid, whenValid_true, noiseMask]
  · have hvalid : spikeModeValid request = true := decide_eq_true hmodes
    simp [exec, execWriteSpike, whenBound_of_bound s hb, hvalid, whenValid_true, spikeMask]
  · obtain ⟨hm, hn⟩ := hmodes
    have hnoise : noiseModeValid s.params m = true := List.contains_iff_mem.mpr hm
    have hspike : spikeModeValid n = true := decide_eq_true hn
    simp [exec, execWriteFilter, whenBound_of_bound s hb, hnoise, hspike, whenValid_true, filterMask]

/-- A valid request lies inside its setter's field, and no field holds the dual-IIR bit. -/
theorem setter_request (hset : IsSetter i mask request) (hmodes : ModesOk s.params i) (hwf : s.params.wf = true) :
    request &&& mask = request ∧ mask.getLsbD 6 = false := by
  rcases hset with ⟨rfl, rfl⟩ | ⟨rfl, rfl⟩ | ⟨m, n, rfl, rfl, rfl⟩
  · exact ⟨noiseMode_and_mask hwf hmodes, rfl⟩
  · exact ⟨spikeMode_and_mask hmodes, rfl⟩
  · obtain ⟨hm, hn⟩ := hmodes
    have hnoise : m &&& (noiseMask ||| spikeMask) = m := and_mask_or (noiseMode_and_mask hwf hm)
    have hspike : n &&& (noiseMask ||| spikeMask) = n := by
      rw [BitVec.or_comm]
      exact and_mask_or (spikeMode_and_mask hn)
    have hboth : (m ||| n) &&& (noiseMask ||| spikeMask) = m ||| n := by
      rw [BitVec.and_or_distrib_right, hnoise, hspike]
    exact ⟨hboth, rfl⟩

/-- A setter that leaves five events has read the config register and written the merged value with the fourth. -/
theorem updateField_writes {read e1 e2 e3 e4 : BusEvent}
    (h : (updateField mask request s).history = s.history ++ [read, e1, e2, e3, e4]) :
    ∃ a ok, a.ok = true ∧ read = readEvent s s.params.regConfig a ∧
      e3 = writeEvent s s.params.regConfig (mergeField mask request (readValue a)) ok := by
  rcases updateField_cases s mask request with ⟨-, -, hu⟩ | ⟨-, -, hu⟩ | ⟨-, -, -, hu⟩ | ⟨-, hok, -, hu⟩
  case inr.inr.inr =>
    obtain ⟨ok1, ok2, bus, hw⟩ := eeWriteBody_eq (s.issue (.writeRead s.devAddr [s.params.regConfig] readReplyLen))
      s.params.regConfig (mergeField mask request
        (readValue (s.answer (.writeRead s.devAddr [s.params.regConfig] readReplyLen))))
    simp only [hu, hw, issue_history, List.append_assoc, List.cons_append, List.nil_append, List.append_cancel_left_eq,
      List.cons.injEq] at h
    obtain ⟨rfl, -, -, rfl, -⟩ := h
    exact ⟨_, ok2, hok, rfl, rfl⟩
  all_goals simp [hu] at h

/-- Settles O27: the five events are those of the update, whose second write carries the merged value. -/
theorem settersPreserveOtherBits : Obligations.SettersPreserveOtherBits := by
  intro s t i mask request read e1 e2 e3 e4 hwf hmodes hb hset h hh
  rw [exec_setter hset hmodes hb] at h
  cases h
  obtain ⟨a, ok, hok, rfl, rfl⟩ := updateField_writes hh
  obtain ⟨hrequest, hbit⟩ := setter_request hset hmodes hwf
  have hv : readValue a = a.r1 ++ a.r0 := by rw [readValue, hok, if_pos rfl, assemble_eq_append]
  have hkept := mergeField_and_not_mask hrequest (readValue a)
  refine ⟨a.r0, a.r1, a.r2, lo (mergeField mask request (readValue a)), hi (mergeField mask request (readValue a)), _,
    ok, by simp [readEvent, hok, readReplyLen], rfl, ?_⟩
  rw [hi_append_lo, ← hv]
  exact ⟨hkept, mergeField_and_mask hrequest _, getLsbD_eq_of_and_not_mask hkept (by decide) hbit⟩

end Sys2Proof.Machine
end

section
/-! PROOFS. The family of 40_transport.md: INIT and WRITE16, from their words to their effects. -/

namespace Sys2Proof.Machine

variable (s : State)

/-! ## INIT (R60) -/

/-- INIT's word, with `R[7] = 0` written out in front of the address (R41, R52). -/
theorem encode_init (a7 : DevAddr) : encode (.init a7) = 0x1#4 ++ 0#4 ++ (0#1 ++ a7) ++ 0#16 ++ 0#16 := by
  have hR : a7.setWidth 8 = 0#1 ++ a7 := BitVec.setWidth_eq_append (by decide)
  rw [encode, hR, packWord]

/-- INIT's answer is its response word alone. -/
theorem initAnswer_eq_answered (present : Bool) :
    initAnswer present s = answered (if present then 0x00000001#32 else 0x40000000#32) s := by
  cases present <;> rfl

/-- Settles O17: the probe is issued with `DEV_ADDR` already written, and its answer becomes `BOUND` and the
response. -/
theorem initResult : Obligations.InitResult := by
  refine ⟨fun a7 => encode_init a7 ▸ decode_encode (.init a7), fun a7 s => ?_⟩
  exact congrArg Host.Outcome.next (initAnswer_eq_answered _ _)

/-! ## WRITE16 (R62) -/

/-- A bound WRITE16 of an EEPROM register: one write and its answer, no erase and no wait. -/
theorem write16Body_eq_answered (ra : Byte) (v : Word) :
    write16Body ra v s =
      answered (if (s.answer (writeQuery s ra v)).ok then 0x00000000#32 else 0x10000000#32)
        (s.issue (writeQuery s ra v)) := by
  rw [← responseWord_busStatus]
  rfl

/-- The two checks of a write in the order of R96: the target's class (R93), then the binding (R92). -/
theorem checked_write_bound {body : State → State} {ra : Byte} (hr : ra ∈ s.params.eepromRegs)
    (hb : s.bound = true) : whenEeprom ra (whenBound body) s = body s :=
  (whenEeprom_of_mem s hr).trans (whenBound_of_bound s hb)

theorem checked_write_illegal {body : State → State} {ra : Byte} (hr : ra ∉ s.params.eepromRegs) :
    whenEeprom ra body s = faulted 0x60000000#32 s :=
  whenEeprom_of_notMem s hr

theorem checked_write_unbound {body : State → State} {ra : Byte} (hr : ra ∈ s.params.eepromRegs)
    (hb : s.bound = false) : whenEeprom ra (whenBound body) s = faulted 0x50000000#32 s :=
  (whenEeprom_of_mem s hr).trans (whenBound_of_unbound s hb)

/-- Settles O19: the word is the encoder's; the checks of R96 let the one write of R62 through or answer a fault. -/
theorem write16Result : Obligations.Write16Result := by
  refine ⟨fun ra v => decode_encode (.write16 ra v), fun ra v s hr hb => ?_, fun ra v s hr => ?_,
    fun ra v s hr hb => ?_⟩
  · have heffect := (checked_write_bound s hr hb).trans (write16Body_eq_answered s ra v)
    exact congrArg Host.Outcome.next heffect
  · exact congrArg Host.Outcome.next (checked_write_illegal s hr)
  · exact congrArg Host.Outcome.next (checked_write_unbound s hr hb)

end Sys2Proof.Machine
end

section
/-! PROOFS. The family of 41_crc.md: the bit loop of the CRC-8 generator, its laws, and its commands from their words to
their effects. -/

namespace Sys2Proof.Machine

/-! ## The step of R71 -/

/-- The polynomial, fed back or not, is linear in the bit that decides it. -/
theorem feedback_bne (p q : Bool) (poly : Byte) :
    (if p ^^ q then poly else 0#8) = (if p then poly else 0#8) ^^^ (if q then poly else 0#8) := by
  cases p <;> cases q <;> simp

theorem crcStep_xor (x y : Byte) : crcStep (x ^^^ y) = crcStep x ^^^ crcStep y := by
  simp only [crcStep, BitVec.getLsbD_xor, feedback_bne, BitVec.shiftLeft_xor_distrib]
  ac_rfl

theorem crcStep_zero : crcStep 0#8 = 0#8 := rfl

theorem iterate_crcStep_xor (n : Nat) (x y : Byte) : crcStep^[n] (x ^^^ y) = crcStep^[n] x ^^^ crcStep^[n] y := by
  induction n generalizing x y with
  | zero => rfl
  | succ n ih => simp only [Function.iterate_succ_apply, crcStep_xor, ih]

/-! ## The bit loop as steps (R70, R71) -/

/-- One iteration of the bit loop steps the exclusive or of accumulator and input byte. -/
theorem crcBits_iteration (acc b : Byte) :
    (if (acc ^^^ b).getLsbD 7 then (acc <<< 1) ^^^ pecPoly else acc <<< 1) ^^^ b <<< 1 = crcStep (acc ^^^ b) := by
  rw [crcStep, BitVec.shiftLeft_xor_distrib, pecPoly]
  split
  · ac_rfl
  · rw [BitVec.xor_zero]

/-- The loop's invariant: what is left of the input byte separates the accumulator from the steps of R71. -/
theorem crcBits_xor_shiftLeft (n : Nat) (acc b : Byte) :
    crcBits n acc b ^^^ b <<< n = crcStep^[n] (acc ^^^ b) := by
  induction n generalizing acc b with
  | zero => simp [crcBits]
  | succ n ih =>
    have hshift : b <<< (n + 1) = b <<< 1 <<< n := by rw [Nat.add_comm, BitVec.shiftLeft_add]
    rw [crcBits, hshift, ih, crcBits_iteration, Function.iterate_succ_apply]

theorem crcByte_eq_iterate (acc b : Byte) : crcByte acc b = crcStep^[8] (acc ^^^ b) := by
  have hspent : b <<< 8 = 0#8 := BitVec.shiftLeft_eq_zero (Nat.le_refl 8)
  rw [← crcBits_xor_shiftLeft, hspent, BitVec.xor_zero, crcByte]

/-- Settles O10: the loop's invariant after eight iterations, when the input byte is shifted out. -/
theorem crcLoopEqualsEightSteps : Obligations.CrcLoopEqualsEightSteps := crcByte_eq_iterate

/-! ## The laws of the checksum (R76) -/

theorem crcByte_xor (acc acc' b b' : Byte) :
    crcByte (acc ^^^ acc') (b ^^^ b') = crcByte acc b ^^^ crcByte acc' b' := by
  have hswap : acc ^^^ acc' ^^^ (b ^^^ b') = acc ^^^ b ^^^ (acc' ^^^ b') := by ac_rfl
  simp only [crcByte_eq_iterate, hswap, iterate_crcStep_xor]

/-- A byte equal to the accumulator clears it. -/
theorem crcByte_self (acc : Byte) : crcByte acc acc = 0#8 := by
  rw [crcByte_eq_iterate, BitVec.xor_self, Function.iterate_fixed crcStep_zero]

/-- Fed two sequences of one length, the accumulator is linear in its start and in the bytes. -/
theorem foldl_crcByte_xor (acc acc' : Byte) {s t : List Byte} (hlen : s.length = t.length) :
    (List.zipWith (· ^^^ ·) s t).foldl crcByte (acc ^^^ acc') = s.foldl crcByte acc ^^^ t.foldl crcByte acc' := by
  induction s generalizing t acc acc' with
  | nil =>
    obtain rfl := List.length_eq_zero_iff.mp hlen.symm
    rfl
  | cons b s ih =>
    cases t with
    | nil => cases hlen
    | cons b' t =>
      simp only [List.zipWith_cons_cons, List.foldl_cons, crcByte_xor]
      exact ih _ _ (Nat.succ.inj hlen)

theorem crc8_zero_cons (s : List Byte) : crc8 (0x00#8 :: s) = crc8 s := by
  rw [crc8, crc8, List.foldl_cons, pecInit, crcByte_self]

theorem crc8_xor {s t : List Byte} (hlen : s.length = t.length) :
    crc8 (List.zipWith (· ^^^ ·) s t) = crc8 s ^^^ crc8 t :=
  foldl_crcByte_xor pecInit pecInit hlen

theorem crc8_concat (s : List Byte) (b : Byte) : crc8 (s ++ [b]) = crcByte (crc8 s) b := List.foldl_concat ..

theorem crc8_residue (s : List Byte) : crc8 (s ++ [crc8 s]) = 0x00#8 := by
  rw [crc8_concat, crcByte_self]

/-- Settles O11: a byte equal to the accumulator clears it, which gives the leading zero and the residue, and the
accumulator is linear. -/
theorem crcLawsHold : Obligations.CrcLawsHold :=
  ⟨rfl, crc8_zero_cons, fun _ _ => crc8_xor, crc8_residue, fun _ => rfl, rfl, rfl, rfl⟩

/-! ## The commands (R73 to R75) -/

/-- The state after CRC_CLEAR or CRC_UPDATE, field by field. -/
theorem crcSet_eq (c : Byte) (s : State) :
    crcSet c s = { s with crcAcc := c, responses := s.responses ++ [0x00#8 ++ c ++ 0x0000#16] } := by
  rw [crcSet, respond, responseWord_ok]
  rfl

/-- Settles O12: the word is the encoder's, and the accumulator is set to its initial value. -/
theorem crcClearResult : Obligations.CrcClearResult :=
  ⟨decode_encode .crcClear, fun s => congrArg Host.Outcome.next (crcSet_eq pecInit s)⟩

/-- Settles O13: the words are the encoder's, the accumulator is set to its advance by the byte, and `crc8` is the fold
from the accumulator that CRC_CLEAR sets. -/
theorem crcUpdateResult : Obligations.CrcUpdateResult :=
  ⟨fun b => decode_encode (.crcUpdate b), fun b s => congrArg Host.Outcome.next (crcSet_eq (crcByte s.crcAcc b) s),
    crcByte_self 0x00#8, fun _ => rfl⟩

theorem exec_crcCheck_answers (p : Byte) (s : State) : exec (.crcCheck p) s =
    .next { s with
      responses := s.responses ++ [0x00#8 ++ s.crcAcc ++ if s.crcAcc = p then 0x0001#16 else 0x0000#16] } := by
  rw [exec_crcCheck_eq, respond, responseWord_ok]

/-- Settles O14: the words are the encoder's, and the comparison of accumulator and operand decides `DATA`. -/
theorem crcCheckResult : Obligations.CrcCheckResult := by
  refine ⟨fun p => decode_encode (.crcCheck p), fun p s hmatch => ?_, fun p s hmismatch => ?_⟩
  · rw [exec_crcCheck_answers, if_pos hmatch]
  · rw [exec_crcCheck_answers, if_neg hmismatch]

end Sys2Proof.Machine
end

section
/-! PROOFS. The family of 42_eeprom_policy.md: the erase-before-write sequence, the reads and the setters of the filter
fields, from their words to their effects, and the wait that follows every write. -/

namespace Sys2Proof.Machine

variable {s t : State} {i : Instr}

/-! ## Every write is followed by its wait (R80, R103) -/

/-- A history is settled when its first event, if a write, is followed by a wait, and the rest is settled. -/
theorem settled_cons {e : BusEvent} {h : List BusEvent} : Settled (e :: h) ↔
    (∀ a7 w ok, e = .write a7 w ok → ∃ n rest, h = .wait n :: rest ∧ 10 ≤ n) ∧ Settled h := by
  constructor
  · intro hs
    exact ⟨fun a7 w ok he => hs [] a7 w ok h (by rw [he]; rfl),
      fun before a7 w ok after hh => hs (e :: before) a7 w ok after (by rw [hh]; rfl)⟩
  · rintro ⟨hhead, htail⟩ before a7 w ok after hh
    cases before with
    | nil =>
      obtain ⟨rfl, rfl⟩ := List.cons.inj hh
      exact hhead a7 w ok rfl
    | cons e' before => exact htail before a7 w ok after (List.cons.inj hh).2

/-- Settled events appended to a settled history leave it settled: no write of the history waits for them. -/
theorem settled_append {h es : List BusEvent} (hh : Settled h) (hes : Settled es) : Settled (h ++ es) := by
  induction h with
  | nil => exact hes
  | cons e h ih =>
    obtain ⟨hhead, htail⟩ := settled_cons.mp hh
    refine settled_cons.mpr ⟨fun a7 w ok he => ?_, ih htail⟩
    obtain ⟨n, rest, rfl, hn⟩ := hhead a7 w ok he
    exact ⟨n, rest ++ es, rfl, hn⟩

theorem settled_erasedWriteEvents (hwait : 10 ≤ s.params.tEE) (ra : Byte) (v : Word) (ok1 ok2 : Bool) :
    Settled (erasedWriteEvents s ra v ok1 ok2) := by
  simp [erasedWriteEvents, writeEvent, settled_cons, settled_nil, hwait]

theorem settled_readEvent_cons (ra : Byte) (a : BusAnswer) {es : List BusEvent} (hes : Settled es) :
    Settled (readEvent s ra a :: es) := by
  simp [readEvent, settled_cons, hes]

/-- A command other than WRITE16 appends its writes with their waits. -/
theorem CommandEvents.settled {es : List BusEvent} (h : CommandEvents s i es) (hwait : 10 ≤ s.params.tEE)
    (notWrite : ∀ ra v, i ≠ .write16 ra v) : Settled es := by
  cases h with
  | none => exact settled_nil
  | read ra a => exact settled_readEvent_cons ra a settled_nil
  | write ra v ok _ isWrite => exact absurd isWrite (notWrite ra v)
  | erasedWrite ra v ok1 ok2 => exact settled_erasedWriteEvents hwait ra v ok1 ok2
  | update a v ok1 ok2 => exact settled_readEvent_cons _ a (settled_erasedWriteEvents hwait _ v ok1 ok2)

/-- Every command but WRITE16 keeps the history settled, the wait being long enough by R5. -/
theorem exec_keeps_settled (hwf : s.params.wf = true) (hs : Settled s.history)
    (notWrite : ∀ ra v, i ≠ .write16 ra v) (h : exec i s = .next t) : Settled t.history := by
  obtain ⟨-, es, hh, ⟨a7, present, -, rfl⟩ | hes⟩ := exec_appends s h
  · have hprobe : Settled [.probe a7 present] := by simp [settled_cons, settled_nil]
    exact hh ▸ settled_append hs hprobe
  · exact hh ▸ settled_append hs (hes.settled (tEE_and_regConfig_of_wf hwf).1 notWrite)

/-- Settles O46: an idle step and an illegal word append no event; a command is not WRITE16, since its word stood at the
port, so it appends settled events only. -/
theorem stepKeepsSettled : Obligations.StepKeepsSettled := by
  rintro s t ⟨hwf, hs, hport⟩ h
  rcases step_cases s h with ⟨-, rfl⟩ | ⟨w, rest, hp, hstep⟩
  · exact ⟨hwf, hs, hport⟩
  · rw [hp] at hport
    obtain ⟨hw, hrest⟩ := List.forall_mem_cons.mp hport
    rcases hstep with ⟨i, hd, hi⟩ | ⟨e, -, rfl⟩
    · have notWrite : ∀ ra v, i ≠ .write16 ra v := fun ra v hiw => hw ra v (hiw ▸ hd)
      obtain ⟨hparams, hport'⟩ := exec_params_port hi
      exact ⟨hparams ▸ hwf, exec_keeps_settled (s := { s with port := rest }) hwf hs notWrite hi, hport' ▸ hrest⟩
    · exact ⟨hwf, hs, hrest⟩

/-! ## EEWRITE (R80) -/

/-- EEWRITE's pseudocode: the four events of `ee_sequence`, and OK exactly when both writes succeeded. -/
theorem eeWriteBody_eq_erasedWrite (ra : Byte) (v : Word) (s : State) : eeWriteBody ra v s = erasedWrite ra v s := by
  have hbody : eeWriteBody ra v s =
    respond (busStatus (eeSequence ra v s).1) 0x00#8 0x0000#16 (eeSequence ra v s).2 := rfl
  rw [hbody, respond, responseWord_busStatus, eeSequence_snd]
  rfl

/-- Settles O20: the word is the encoder's; the checks of R96 let the sequence of R80 through or answer a fault. -/
theorem eeWriteResult : Obligations.EeWriteResult := by
  refine ⟨fun ra v => decode_encode (.eeWrite ra v), fun ra v s hr hb => ?_, fun ra v s hr => ?_,
    fun ra v s hr hb => ?_⟩
  · have heffect := (checked_write_bound s hr hb).trans (eeWriteBody_eq_erasedWrite ra v s)
    exact congrArg Host.Outcome.next heffect
  · exact congrArg Host.Outcome.next (checked_write_illegal s hr)
  · exact congrArg Host.Outcome.next (checked_write_unbound s hr hb)

/-! ## What a read gives (R61, R82, R83) -/

theorem valueOf_eq_readValue (a : BusAnswer) : valueOf a = readValue a := by
  rw [readValue, assemble_eq_append]
  rfl

theorem pecOf_eq_readPec (a : BusAnswer) : pecOf a = readPec a := rfl

theorem valueOf_of_failed {a : BusAnswer} (h : a.ok = false) : valueOf a = 0x0000#16 := by
  simp [valueOf, h]

/-- The response of a bus command, field by field: `STATUS` and `RSV` are one byte, 0x00 or 0x10. -/
theorem responseWord_busStatus_eq_append (ok : Bool) (aux : Byte) (data : Word) :
    responseWord (busStatus ok) aux data = (if ok then 0x00#8 else 0x10#8) ++ aux ++ data := by
  cases ok <;> rfl

/-! ## READ_NOISE (R82) -/

/-- The response of READ_NOISE: PEC and field under OK, or BUS_FAIL with zeros. -/
theorem responseWord_readNoise (a : BusAnswer) :
    responseWord (busStatus a.ok) (readPec a) (noiseField (readValue a)) =
      if a.ok then 0x00#8 ++ a.r2 ++ (valueOf a &&& 0x0700#16) else 0x10000000#32 := by
  rw [← valueOf_eq_readValue, ← pecOf_eq_readPec]
  cases h : a.ok
  · simpa [pecOf, valueOf_of_failed h, h, noiseField] using responseWord_busStatus false
  · simp [pecOf, h, noiseField, noiseMask, busStatus, responseWord_ok]

/-- Settles O21: the word of READ_NOISE, its one read and the masked field while bound, and the fault while unbound. -/
theorem readNoiseResult : Obligations.ReadNoiseResult := by
  refine ⟨decode_encode .readNoise, fun s hb => ?_, fun s hb => ?_⟩
  · dsimp only
    rw [← responseWord_readNoise]
    exact congrArg Host.Outcome.next (whenBound_of_bound s hb)
  · exact congrArg Host.Outcome.next (whenBound_of_unbound s hb)

/-! ## READ_SPIKE (R83) -/

/-- The `DATA` of READ_SPIKE under the setting `test`: the sentinel for a read taken as failed, else the field. -/
def spikeData (test : SpikeFailTest) (a : BusAnswer) : Word :=
  if (match test with
    | .zeroValue => decide (valueOf a = 0x0000#16)
    | .busStatus => !a.ok) then 0x1000#16 else valueOf a &&& 0x0007#16

/-- The response of READ_SPIKE under the setting `test`: the setting decides `DATA` only. -/
def spikeResponse (test : SpikeFailTest) (a : BusAnswer) : ResponseWord :=
  (if a.ok then 0x00#8 else 0x10#8) ++ pecOf a ++ spikeData test a

theorem responseWord_readSpike (p : Params) (a : BusAnswer) :
    responseWord (busStatus a.ok) (readPec a)
      (if spikeReadFailed p a then spikeReadFail else spikeField (readValue a)) = spikeResponse p.spikeFailTest a := by
  have hdata : (if spikeReadFailed p a then spikeReadFail else spikeField (readValue a)) =
      spikeData p.spikeFailTest a := by
    rw [spikeReadFailed, ← valueOf_eq_readValue]
    cases p.spikeFailTest <;> rfl
  rw [hdata, responseWord_busStatus_eq_append, spikeResponse, pecOf_eq_readPec]

theorem spikeResponse_of_failed (test : SpikeFailTest) {a : BusAnswer} (h : a.ok = false) :
    spikeResponse test a = 0x10001000#32 := by
  cases test <;> simp [spikeResponse, spikeData, pecOf, valueOf_of_failed h, h]

theorem spikeResponse_zeroValue_of_zero {a : BusAnswer} (hok : a.ok = true) (h : valueOf a = 0x0000#16) :
    spikeResponse .zeroValue a = 0x00#8 ++ a.r2 ++ 0x1000#16 := by
  simp [spikeResponse, spikeData, pecOf, hok, h]

theorem spikeResponse_busStatus_of_zero {a : BusAnswer} (hok : a.ok = true) (h : valueOf a = 0x0000#16) :
    spikeResponse .busStatus a = 0x00#8 ++ a.r2 ++ 0x0000#16 := by
  simp [spikeResponse, spikeData, pecOf, hok, h]

theorem spikeResponse_of_nonzero (test : SpikeFailTest) {a : BusAnswer} (hok : a.ok = true)
    (h : valueOf a ≠ 0x0000#16) : spikeResponse test a = 0x00#8 ++ a.r2 ++ (valueOf a &&& 0x0007#16) := by
  cases test <;> simp [spikeResponse, spikeData, pecOf, hok, h]

/-- READ_SPIKE while bound: one read and its response. -/
theorem exec_readSpike_bound (hb : s.bound = true) :
    exec .readSpike s = .next (answered
      (spikeResponse s.params.spikeFailTest (s.answer (readQuery s s.params.regConfig)))
      (s.issue (readQuery s s.params.regConfig))) := by
  rw [← responseWord_readSpike]
  exact congrArg Host.Outcome.next (whenBound_of_bound s hb)

/-- Settles O22: the word of READ_SPIKE, its one read and the field or sentinel while bound, and the fault while
unbound. -/
theorem readSpikeResult : Obligations.ReadSpikeResult :=
  ⟨decode_encode .readSpike, fun _ => exec_readSpike_bound,
    fun s hb => congrArg Host.Outcome.next (whenBound_of_unbound s hb)⟩

/-- The state with the parameter `SPIKE_FAIL_TEST` set to `test`. -/
def withSpikeFailTest (s : State) (test : SpikeFailTest) : State :=
  { s with params := { s.params with spikeFailTest := test } }

/-- No bus collaborator knows the setting: a read is answered alike under both. -/
theorem answer_withSpikeFailTest (test : SpikeFailTest) (ra : Byte) :
    (withSpikeFailTest s test).answer (readQuery s ra) = s.answer (readQuery s ra) := rfl

/-- READ_SPIKE under `test` responds by the answer that the read gets in `s`. -/
theorem responses_readSpike_withSpikeFailTest {test : SpikeFailTest} (hb : s.bound = true)
    (h : exec .readSpike (withSpikeFailTest s test) = .next t) :
    t.responses = s.responses ++ [spikeResponse test (s.answer (readQuery s s.params.regConfig))] := by
  rw [exec_readSpike_bound (s := withSpikeFailTest s test) hb] at h
  cases h
  rw [← answer_withSpikeFailTest test]
  rfl

/-- Settles O23: READ_SPIKE's response under each setting, by the answer of the read. -/
theorem spikeFailTestSettingsDiffer : Obligations.SpikeFailTestSettingsDiffer := by
  intro s t u a hb ht hu
  have hzeroValue : t.responses = s.responses ++ [spikeResponse .zeroValue a] :=
    responses_readSpike_withSpikeFailTest hb ht
  have hbusStatus : u.responses = s.responses ++ [spikeResponse .busStatus a] :=
    responses_readSpike_withSpikeFailTest hb hu
  rw [hzeroValue, hbusStatus]
  refine ⟨fun hfailed => ?_, fun hok hzero => ?_, fun hok hnonzero => ?_⟩
  · simp only [spikeResponse_of_failed _ hfailed, and_self]
  · rw [spikeResponse_zeroValue_of_zero hok hzero, spikeResponse_busStatus_of_zero hok hzero]
    exact ⟨rfl, rfl⟩
  · simp only [spikeResponse_of_nonzero _ hok hnonzero, and_self]

/-! ## The setters (R84 to R87) -/

/-- The setters' pseudocode after validation: the failed read, the two reasons to skip, and the cycle. -/
theorem updateField_eq_fieldUpdate (mask request : Word) (s : State) :
    updateField mask request s = fieldUpdate mask request s := by
  have hquery : readQuery s s.params.regConfig = .writeRead s.devAddr [s.params.regConfig] readReplyLen := rfl
  simp only [fieldUpdate, valueOf_eq_readValue, hquery]
  rcases updateField_cases s mask request with ⟨-, hok, h⟩ | ⟨hv, hok, h⟩ | ⟨hv, hok, hm, h⟩ | ⟨hv, hok, hm, h⟩
  · rw [h, if_pos hok]
    rfl
  · rw [h, if_neg (ne_false_of_eq_true hok), if_pos hv]
    rfl
  · rw [h, if_neg (ne_false_of_eq_true hok), if_neg hv, if_pos hm]
    rfl
  · rw [h, if_neg (ne_false_of_eq_true hok), if_neg hv, if_neg hm, eeWriteBody_eq_erasedWrite, mergeField]

theorem exec_setter_bound {mask request : Word} (hset : IsSetter i mask request) (hmodes : ModesOk s.params i)
    (hb : s.bound = true) : exec i s = .next (fieldUpdate mask request s) := by
  rw [exec_setter hset hmodes hb, updateField_eq_fieldUpdate]

theorem exec_setter_unbound {mask request : Word} (hset : IsSetter i mask request) (hb : s.bound = false) :
    exec i s = .next (faulted 0x50000000#32 s) := by
  rcases hset with ⟨rfl, -⟩ | ⟨rfl, -⟩ | ⟨m, n, rfl, -⟩ <;>
    exact congrArg Host.Outcome.next (whenBound_of_unbound s hb)

/-- A setter of invalid modes is answered IGNORED after the check of the binding, and nothing else happens. -/
theorem ignored_of_invalid {valid : Bool} {body : State → State} (hb : s.bound = true) (hv : valid = false) :
    whenBound (whenValid valid body) s = answered 0x20000000#32 s := by
  rw [whenBound_of_bound s hb, hv, whenValid_false]
  rfl

theorem noiseModeValid_eq_false {p : Params} {m : Word} (h : m ∉ p.noiseValid) : noiseModeValid p m = false := by
  simp [noiseModeValid, h]

theorem spikeModeValid_eq_false {m : Word} (h : ¬ m.toNat ≤ 7) : spikeModeValid m = false := decide_eq_false h

theorem exec_of_invalid_modes (hb : s.bound = true) (hmodes : ¬ ModesOk s.params i) :
    exec i s = .next (answered 0x20000000#32 s) := by
  cases i with
  | writeNoise m => exact congrArg Host.Outcome.next (ignored_of_invalid hb (noiseModeValid_eq_false hmodes))
  | writeSpike m => exact congrArg Host.Outcome.next (ignored_of_invalid hb (spikeModeValid_eq_false hmodes))
  | writeFilter noise spike =>
    refine congrArg Host.Outcome.next (ignored_of_invalid hb ?_)
    rcases not_and_or.mp hmodes with hnoise | hspike
    · rw [noiseModeValid_eq_false hnoise, Bool.false_and]
    · rw [spikeModeValid_eq_false hspike, Bool.and_false]
  | _ => exact absurd trivial hmodes

/-- Settles O28: the only commands with modes are the setters, and validation turns each away. -/
theorem invalidModesIgnored : Obligations.InvalidModesIgnored := fun _ _ => exec_of_invalid_modes

/-- Settles O24: the words are the encoder's; a valid mode runs the update of bits 10:8. -/
theorem writeNoiseResult : Obligations.WriteNoiseResult := by
  have hset (m : Word) : IsSetter (.writeNoise m) 0x0700#16 m := .inl ⟨rfl, rfl⟩
  exact ⟨fun m => decode_encode (.writeNoise m), fun m s hb hm => exec_setter_bound (hset m) hm hb,
    fun m s hb hm => exec_of_invalid_modes hb hm, fun m s hb => exec_setter_unbound (hset m) hb⟩

/-- Settles O25: the words are the encoder's; a mode up to 7 runs the update of bits 2:0. -/
theorem writeSpikeResult : Obligations.WriteSpikeResult := by
  have hset (m : Word) : IsSetter (.writeSpike m) 0x0007#16 m := .inr (.inl ⟨rfl, rfl⟩)
  exact ⟨fun m => decode_encode (.writeSpike m), fun m s hb hm => exec_setter_bound (hset m) hm hb,
    fun m s hb hm => exec_of_invalid_modes hb (Nat.not_le.mpr hm), fun m s hb => exec_setter_unbound (hset m) hb⟩

/-- Settles O26: the words are the encoder's; two valid modes run one update of both fields, and one invalid mode makes
the pair invalid. -/
theorem writeFilterResult : Obligations.WriteFilterResult := by
  have hset (m n : Word) : IsSetter (.writeFilter m n) 0x0707#16 (m ||| n) := .inr (.inr ⟨m, n, rfl, rfl, rfl⟩)
  refine ⟨fun m n => decode_encode (.writeFilter m n), fun m n s hb hm hn => exec_setter_bound (hset m n) ⟨hm, hn⟩ hb,
    fun m n s hb hinvalid => exec_of_invalid_modes hb ?_, fun m n s hb => exec_setter_unbound (hset m n) hb⟩
  rintro ⟨hm, hn⟩
  exact hinvalid.elim (· hm) (Nat.not_lt.mpr hn)

end Sys2Proof.Machine
end

section
/-! PROOFS. The family of 60_exceptions.md: the checks of R96 in their order, each with the response of a command that
it turns away, and the statuses of a command that passes them all. -/

namespace Sys2Proof.Machine

variable {s t : State} {i : Instr} {st : Status}

/-! ## The checks that turn a command away (R92, R93) -/

/-- A write outside `EEPROM_REGS` is ILLEGAL; the binding is not looked at (R93 (b), R96 item 2). -/
theorem exec_of_bad_target (ht : ¬ TargetOk s.params i) : exec i s = .next (faulted 0x60000000#32 s) := by
  cases i with
  | write16 | eeWrite => exact congrArg Host.Outcome.next (checked_write_illegal s ht)
  | _ => exact absurd trivial ht

/-- The check of the binding comes before the filter modes and the pseudocode (R92, R96 item 3). -/
theorem exec_transactor_unbound (hi : i.isTransactor = true) (ht : TargetOk s.params i) (hb : s.bound = false) :
    exec i s = .next (faulted 0x50000000#32 s) := by
  cases i with
  | init | crcClear | crcUpdate | crcCheck => cases hi
  | write16 | eeWrite => exact congrArg Host.Outcome.next (checked_write_unbound s ht hb)
  | read16 | readNoise | readSpike | writeNoise | writeSpike | writeFilter =>
    exact congrArg Host.Outcome.next (whenBound_of_unbound s hb)

/-- INIT and the CRC commands pass every check. -/
theorem admitted_modesOk_of_not_transactor (hi : i.isTransactor = false) : Admitted s i ∧ ModesOk s.params i := by
  cases i with
  | init | crcClear | crcUpdate | crcCheck => exact ⟨⟨trivial, by simp [hi]⟩, trivial⟩
  | _ => cases hi

/-! ## The status of a response -/

/-- From `s` to `t` one response has been given, and its status is `st`. -/
def Responds (s t : State) (st : Status) : Prop :=
  ∃ aux data, t.responses = s.responses ++ [responseWord st aux data]

theorem Responds.status_eq {r : ResponseWord} (h : Responds s t st) (hr : t.responses = s.responses ++ [r]) :
    responseStatus r = st.code := by
  obtain ⟨aux, data, hst⟩ := h
  obtain rfl : responseWord st aux data = r := by simpa [hst] using hr
  exact responseStatus_responseWord st aux data

/-- The response of a command is read off the state `u` that its check is known to end in. -/
theorem Responds.of_exec {u : State} (h : exec i s = .next t) (hu : exec i s = .next u)
    (hr : u.responses = s.responses ++ [responseWord st 0x00#8 0x0000#16]) : Responds s t st := by
  rw [hu] at h
  cases h
  exact ⟨0x00#8, 0x0000#16, hr⟩

/-! ## The statuses of the pseudocode (R96 item 5) -/

/-- The statuses that are left when every check has passed. -/
def pseudocodeStatuses : List Status := [.ok, .busFail, .skipped, .noDevice]

/-- From `s` to `t` one response has been given, with a status of the pseudocode. -/
def PseudocodeResponds (s t : State) : Prop := ∃ st ∈ pseudocodeStatuses, Responds s t st

/-- A response with a status of the pseudocode, given in any state that the command has reached without a response. -/
theorem pseudocodeResponds_respond {u : State} {aux : Byte} {data : Word} (hst : st ∈ pseudocodeStatuses)
    (hu : u.responses = s.responses) : PseudocodeResponds s (respond st aux data u) :=
  ⟨st, hst, aux, data, by rw [respond_responses, hu]⟩

theorem busStatus_mem_pseudocodeStatuses (ok : Bool) : busStatus ok ∈ pseudocodeStatuses := by cases ok <;> decide

theorem pseudocodeResponds_initAnswer {u : State} (present : Bool) (hu : u.responses = s.responses) :
    PseudocodeResponds s (initAnswer present u) := by
  cases present
  · exact pseudocodeResponds_respond (st := .noDevice) (by decide) hu
  · exact pseudocodeResponds_respond (st := .ok) (by decide) hu

theorem pseudocodeResponds_eeWriteBody {u : State} (ra : Byte) (v : Word) (hu : u.responses = s.responses) :
    PseudocodeResponds s (eeWriteBody ra v u) :=
  pseudocodeResponds_respond (busStatus_mem_pseudocodeStatuses _) hu

theorem pseudocodeResponds_updateField (mask request : Word) : PseudocodeResponds s (updateField mask request s) := by
  rcases updateField_cases s mask request with ⟨-, -, h⟩ | ⟨-, -, h⟩ | ⟨-, -, -, h⟩ | ⟨-, -, -, h⟩
  · exact h ▸ pseudocodeResponds_respond (by decide) rfl
  · exact h ▸ pseudocodeResponds_respond (by decide) rfl
  · exact h ▸ pseudocodeResponds_respond (by decide) rfl
  · exact h ▸ pseudocodeResponds_eeWriteBody _ _ rfl

theorem pseudocodeResponds_setter {mask request : Word} (hset : IsSetter i mask request) (h : exec i s = .next t)
    (hb : s.bound = true) (hmodes : ModesOk s.params i) : PseudocodeResponds s t := by
  rw [exec_setter hset hmodes hb] at h
  cases h
  exact pseudocodeResponds_updateField mask request

/-- A command that passes the checks of its target, of the binding and of its modes runs its pseudocode. -/
theorem exec_pseudocodeResponds (ha : Admitted s i) (hmodes : ModesOk s.params i) (h : exec i s = .next t) :
    PseudocodeResponds s t := by
  obtain ⟨htarget, hbound⟩ := ha
  cases i with
  | init a7 => cases h; exact pseudocodeResponds_initAnswer _ rfl
  | crcClear | crcUpdate | crcCheck => cases h; exact pseudocodeResponds_respond (by decide) rfl
  | read16 | readNoise | readSpike =>
    cases h
    rw [whenBound_of_bound s (hbound rfl)]
    exact pseudocodeResponds_respond (busStatus_mem_pseudocodeStatuses _) rfl
  | write16 ra v =>
    cases h
    rw [checked_write_bound s htarget (hbound rfl)]
    exact pseudocodeResponds_respond (busStatus_mem_pseudocodeStatuses _) rfl
  | eeWrite ra v =>
    cases h
    rw [checked_write_bound s htarget (hbound rfl)]
    exact pseudocodeResponds_eeWriteBody ra v rfl
  | writeNoise m => exact pseudocodeResponds_setter (.inl ⟨rfl, rfl⟩) h (hbound rfl) hmodes
  | writeSpike m => exact pseudocodeResponds_setter (.inr (.inl ⟨rfl, rfl⟩)) h (hbound rfl) hmodes
  | writeFilter m n => exact pseudocodeResponds_setter (.inr (.inr ⟨m, n, rfl, rfl, rfl⟩)) h (hbound rfl) hmodes

/-- The codes of the pseudocode's statuses: none is that of an earlier check. -/
theorem PseudocodeResponds.status_mem {r : ResponseWord} (h : PseudocodeResponds s t)
    (hr : t.responses = s.responses ++ [r]) : responseStatus r ∈ [0x0#4, 0x1#4, 0x3#4, 0x4#4] := by
  obtain ⟨st, hst, hresponds⟩ := h
  rw [hresponds.status_eq hr]
  exact List.mem_map_of_mem (f := Status.code) hst

/-! ## The statements -/

/-- Settles O29: a transactor command with a good target meets the check of the binding; INIT and the CRC commands
pass every check, so their pseudocode decides the status. -/
theorem unboundTransactorFaults : Obligations.UnboundTransactorFaults := by
  refine ⟨fun i s hi ht hb => exec_transactor_unbound hi ht hb, fun i s t hi h => ?_⟩
  obtain ⟨ha, hmodes⟩ := admitted_modesOk_of_not_transactor (s := s) hi
  obtain ⟨st, aux, data, hr, -⟩ := exec_responds h
  have hstatus := (exec_pseudocodeResponds ha hmodes h).status_mem hr
  refine ⟨_, hr, fun hfault => ?_⟩
  rw [hfault] at hstatus
  exact absurd hstatus (by decide)

/-- Settles O30: the step answers an illegal word (R44), and a bad write target is found before anything else. -/
theorem illegalCommandsFault : Obligations.IllegalCommandsFault := by
  obtain ⟨-, -, -, -, hillegal⟩ := illegalWordsAnswered
  exact ⟨hillegal, fun i s ht => exec_of_bad_target ht⟩

/-- Settles O31: one clause for each check of R96, and one for the pseudocode of a command that passes them all. -/
theorem outcomePriority : Obligations.OutcomePriority := by
  intro s t w rest hp h
  cases hd : decode w with
  | error e =>
    rw [step_of_decode_error hp hd] at h
    cases h
    exact ⟨_, rfl, fun _ => responseStatus_responseWord .., nofun, nofun, nofun, nofun⟩
  | ok i =>
    rw [step_of_decode_ok hp hd] at h
    obtain ⟨st, aux, data, hr, -⟩ := exec_responds h
    refine ⟨_, hr, fun hw => absurd rfl (hw i), ?_, ?_, ?_, ?_⟩
    · rintro _ ⟨⟩ ht
      exact (Responds.of_exec (st := .illegal) h (exec_of_bad_target ht) rfl).status_eq hr
    · rintro _ ⟨⟩ ht hi hb
      exact (Responds.of_exec (st := .notBound) h (exec_transactor_unbound hi ht hb) rfl).status_eq hr
    · rintro _ ⟨⟩ hb hmodes
      exact (Responds.of_exec (st := .ignored) h (exec_of_invalid_modes hb hmodes) rfl).status_eq hr
    · rintro _ ⟨⟩ ht hb hmodes
      have ha : Admitted { s with port := rest } i := ⟨ht, hb⟩
      exact (exec_pseudocodeResponds ha hmodes h).status_mem hr

end Sys2Proof.Machine
end

section
/-! PROOFS. The family of 70_reset_and_hazards.md: what reset leaves. -/

namespace Sys2Proof.Machine

/-- The machine's own reset has the default parameters, `DEV_ADDR` 0x00, an empty script and an empty port. -/
theorem reset_eq_resetOf : State.reset = State.resetOf Params.default 0x00#7 (.oracle []) [] := rfl

theorem core_reset_eq : core.reset = State.reset := rfl

/-- Settles O40: the fields of `State.resetOf`, of which the machine's own reset is an instance. -/
theorem resetLeaves : Obligations.ResetLeaves := by
  refine ⟨fun p a7 bus port => ?_, ⟨_, _, _, _, reset_eq_resetOf⟩, core_reset_eq⟩
  exact ⟨resetOf_bound p a7 bus port, resetOf_crcAcc p a7 bus port, resetOf_history p a7 bus port,
    resetOf_devAddr p a7 bus port, resetOf_faultMark p a7 bus port, resetOf_responses p a7 bus port,
    resetOf_bus p a7 bus port, resetOf_params p a7 bus port⟩

end Sys2Proof.Machine
end
